-- ==== Sys2Proof/Word.lean ====
section
/-! DEFINITION. The word types of the LIN frame engine (spec/00_scope.md R7: every value is unsigned). -/

namespace Sys2Proof

/-- One byte of a frame or of the DATA buffer. -/
abbrev Byte := BitVec 8

/-- A 32-bit register, host word or command word (10_state.md R14). -/
abbrev Word := BitVec 32

/-- A 6-bit frame identifier (00_scope.md R6 ID_WIDTH). -/
abbrev FrameId := BitVec 6

/-- Six levels, one for each peer-status input (10_state.md R26). -/
abbrev Pins := BitVec 6

end Sys2Proof
end

