-- ==== Sys2Proof/Syntax.lean ====
section
/-! DEFINITION. The six commands of spec/opcode_table.json with the fields of the command word (30_encoding.md R46). -/

namespace Sys2Proof

/-- The fields of a command word beside OP (30_encoding.md R46). Every command carries all of them: the ones it ignores
(R48) are still part of the word that CMD keeps (10_state.md R15). LEN is a count; its 4 bits are checked by
`Instr.WellFormed`. -/
structure CmdFields where
  id : FrameId
  len : Nat
  dp : Bool
  enh : Bool
  inj : Bool
  force : Bool
  deriving DecidableEq, Repr, Inhabited

/-- One constructor for each row of the opcode table. -/
inductive Instr where
  | nop (f : CmdFields)
  | init (f : CmdFields)
  | transmit (f : CmdFields)
  | request (f : CmdFields)
  | sleep (f : CmdFields)
  | resetCounters (f : CmdFields)
  deriving DecidableEq, Repr, Inhabited

/-- The fields of a command. -/
def Instr.fields : Instr → CmdFields
  | .nop f => f
  | .init f => f
  | .transmit f => f
  | .request f => f
  | .sleep f => f
  | .resetCounters f => f

/-- The opcode of a command (30_encoding.md R48). -/
def Instr.opcode : Instr → BitVec 4
  | .nop _ => 0x0#4
  | .init _ => 0x1#4
  | .transmit _ => 0x2#4
  | .request _ => 0x3#4
  | .sleep _ => 0x4#4
  | .resetCounters _ => 0x5#4

end Sys2Proof
end

