-- ==== Sys2Proof/WellFormed.lean ====
section
/-! DEFINITION. When a command term stands for a command word: every field fits its bits (30_encoding.md R46). -/

namespace Sys2Proof

/-- LEN has four bits (30_encoding.md R46: bits 19:16). ID, DP, ENH, INJ and FORCE fit their bits by their types. A LEN
of 9 to 15 is no ill-formed word: the command rules answer it with a result (R50). -/
def CmdFields.wellFormed (f : CmdFields) : Bool := decide (f.len < 16)

/-- Every field of the command fits its bits. -/
def Instr.wellFormed (i : Instr) : Bool := i.fields.wellFormed

/-- Well-formedness as a proposition. -/
abbrev Instr.WellFormed (i : Instr) : Prop := i.wellFormed = true

end Sys2Proof
end

