-- ==== Sys2Proof/Decode.lean ====
section
/-! DEFINITION. The decoder from command words to commands, total and rejecting by name (30_encoding.md R46 to R50), and
after it the encoder, written from the same format. -/

namespace Sys2Proof

/-- Why bits are no command: reserved bits, or a reserved opcode (30_encoding.md R50), or not the four bytes of one
word. -/
inductive Reject where
  | rsvdBits
  | rsvdOpcode
  | notOneWord
  deriving DecidableEq, Repr

/-- OP = v[3:0] (30_encoding.md R47). -/
def wordOp (v : Word) : BitVec 4 := v.extractLsb' 0 4

/-- RSVD = v[7:4] | v[15:14] | v[31:24] as one question: is a reserved bit set (30_encoding.md R47)? -/
def wordReserved (v : Word) : Bool :=
  v.extractLsb' 4 4 != 0#4 || v.extractLsb' 14 2 != 0#2 || v.extractLsb' 24 8 != 0#8

/-- ID, LEN, DP, ENH, INJ and FORCE of a command word (30_encoding.md R47). -/
def wordFields (v : Word) : CmdFields :=
  { id := v.extractLsb' 8 6
    len := (v.extractLsb' 16 4).toNat
    dp := v.getLsbD 20
    enh := v.getLsbD 21
    inj := v.getLsbD 22
    force := v.getLsbD 23 }

/-- The command a word names. The reserved bits are checked before the opcode (30_encoding.md R49). -/
def decode (v : Word) : Except Reject Instr :=
  if wordReserved v then .error .rsvdBits
  else if wordOp v = 0x0#4 then .ok (.nop (wordFields v))
  else if wordOp v = 0x1#4 then .ok (.init (wordFields v))
  else if wordOp v = 0x2#4 then .ok (.transmit (wordFields v))
  else if wordOp v = 0x3#4 then .ok (.request (wordFields v))
  else if wordOp v = 0x4#4 then .ok (.sleep (wordFields v))
  else if wordOp v = 0x5#4 then .ok (.resetCounters (wordFields v))
  else .error .rsvdOpcode

/-- The word of four bytes in address order: little-endian (20_memory.md R36). -/
def wordOfBytes (b0 b1 b2 b3 : Byte) : Word := b3 ++ b2 ++ b1 ++ b0

/-- The decoder on bytes as a register slot holds them, lowest address first. -/
def decodeBytes : List Byte → Except Reject Instr
  | [b0, b1, b2, b3] => decode (wordOfBytes b0 b1 b2 b3)
  | _ => .error .notOneWord

/-- One bit of a command word. -/
def flagBit (b : Bool) : BitVec 1 := if b then 1#1 else 0#1

/-- The command word of an opcode and fields: `00000000 F J E D LLLL 00 IIIIII 0000 OOOO` from bit 31 down to bit 0
(30_encoding.md R46). -/
def encodeFields (op : BitVec 4) (f : CmdFields) : Word :=
  0#8 ++ flagBit f.force ++ flagBit f.inj ++ flagBit f.enh ++ flagBit f.dp ++ BitVec.ofNat 4 f.len ++
    0#2 ++ f.id ++ 0#4 ++ op

/-- The command word of a command. -/
def encode (i : Instr) : Word := encodeFields i.opcode i.fields

/-- The four bytes of a word, lowest address first (20_memory.md R36). -/
def bytesOfWord (v : Word) : List Byte :=
  [v.extractLsb' 0 8, v.extractLsb' 8 8, v.extractLsb' 16 8, v.extractLsb' 24 8]

/-- The number of an opcode-table row's bits as the word the host would write: the bits above nbits are 0. -/
def tableWord (nbits w : Nat) : Nat := w % 2 ^ nbits

/-- The instruction the decoder reads from a table word, through the bytes a register slot would hold. A number that
does not fit one command word is none. -/
def decodeTableWord (nbits w : Nat) : Option Instr :=
  if tableWord nbits w < 2 ^ 32 then
    match decodeBytes (bytesOfWord (BitVec.ofNat 32 (tableWord nbits w))) with
    | .ok i => some i
    | .error _ => none
  else none

end Sys2Proof
end

