-- ==== Sys2Proof/Machine/FrameEncoder.lean ====
section
/-! DEFINITION. The frame encoder (spec/41_frame_encoder.md): PID parity, checksum mode, end-around carry, checksum byte
and verification. Pure functions. -/

namespace Sys2Proof.Machine

/-- P0 (41_frame_encoder.md R70). -/
def pidP0 (id : FrameId) : Bool :=
  id.getLsbD 0 ^^ id.getLsbD 1 ^^ id.getLsbD 2 ^^ id.getLsbD 4

/-- P1 (41_frame_encoder.md R70). -/
def pidP1 (id : FrameId) : Bool :=
  !(id.getLsbD 1 ^^ id.getLsbD 3 ^^ id.getLsbD 4 ^^ id.getLsbD 5)

/-- The protected identifier {P1, P0, id} (41_frame_encoder.md R70, 30_encoding.md R54). -/
def encodePid (id : FrameId) : Byte := flagBit (pidP1 id) ++ flagBit (pidP0 id) ++ id

/-- The effective checksum mode: enhanced only below 0x3C (41_frame_encoder.md R73). -/
def enhEffective (enh : Bool) (id : FrameId) : Bool := enh && decide (id.toNat < 0x3C)

/-- The seed of the accumulator (41_frame_encoder.md R73). -/
def checksumSeed (enhEff : Bool) (pid : Byte) : Byte := if enhEff then pid else 0x00#8

/-- One accumulation step: a 9-bit sum, its carry added back in, its low 8 bits (41_frame_encoder.md R74). -/
def acc (s b : Byte) : Byte :=
  let t : BitVec 9 := s.setWidth 9 + b.setWidth 9
  (t + t >>> 8).setWidth 8

/-- Accumulation over bytes in frame order (41_frame_encoder.md R75). -/
def accum : Byte → List Byte → Byte
  | seed, [] => seed
  | seed, b :: rest => accum (acc seed b) rest

/-- The ones' complement of the final accumulator (41_frame_encoder.md R77). -/
def computeChecksum (seed : Byte) (bytes : List Byte) : Byte := ~~~ accum seed bytes

/-- Injection flips bit 0 of the checksum byte (41_frame_encoder.md R78). -/
def injectError (inj : Bool) (chk : Byte) : Byte := chk ^^^ (if inj then 0x01#8 else 0x00#8)

/-- A received response with its checksum byte is valid (41_frame_encoder.md R79). -/
def responseValid (seed : Byte) (response : List Byte) (c : Byte) : Bool :=
  acc (accum seed response) c == 0xFF#8

/-- The source's deferred fold, `while S > 0xFF: S <- S - 0xFF`, with a bound on its rounds (41_frame_encoder.md R80). -/
def foldRounds : Nat → Nat → Nat
  | 0, total => total
  | n + 1, total => if total > 0xFF then foldRounds n (total - 0xFF) else total

/-- The deferred fold of a plain sum; the sum itself bounds its rounds (41_frame_encoder.md R80). -/
def foldSum (total : Nat) : Nat := foldRounds total total

end Sys2Proof.Machine
end

