-- ==== Sys2Proof/Machine/Interface.lean ====
section
/-! DEFINITION. What lies at the block's border: the collaborators' state as the environment holds it, the actions the
engine issues to them, and the events by which the outside world and the agents act. -/

namespace Sys2Proof.Machine

/-- A waveform the line owes: a wakeup pulse (40_bit_timing.md R69) or a break with its delimiter (R64). -/
inductive LineItem where
  | wake
  | brk
  deriving DecidableEq, Repr, Inhabited

/-- What has gone over the LIN line: a wakeup pulse, a break with its delimiter, or one byte the block sent with the
byte the comparator observed in the same slot. -/
inductive BusItem where
  | wake
  | brk
  | byte (sent observed : Byte)
  deriving DecidableEq, Repr, Inhabited

/-- The actions the engine issues (10_state.md R29). -/
inductive Action where
  | flush
  | rxEnable
  | rxBlock (on : Bool)
  | wakeupPulse
  | txWrite (b : Byte)
  | armBreak
  | rxDisable
  | rxPop
  | tmoStart (ticks : Nat)
  | tmoStop
  | uartConfig (baud : BitVec 24)
  | edgeEnable
  deriving DecidableEq, Repr, Inhabited

/-- The collaborators (10_state.md R27 to R30). The first eight fields and `tmoUf` are the flags of R28 of the same
names; RXDATAV and RXDATA are read off `rxFifo`. The rest is what the duties of R30 speak about. -/
structure Env where
  txIdle : Bool
  rxBlocked : Bool
  txbl : Bool
  txc : Bool
  rxDisabled : Bool
  coll : Bool
  ferr : Bool
  ovf : Bool
  /-- bytes written by TX_WRITE and not yet sent, oldest first -/
  txBuf : List Byte
  /-- the slots sent since the last FLUSH, oldest first: the byte sent and the byte observed -/
  slots : List (Byte × Byte)
  /-- the receive FIFO, head first -/
  rxFifo : List Byte
  /-- the last of RX_ENABLE and RX_DISABLE -/
  rxEnabled : Bool
  /-- the last RX_BLOCK -/
  rxBlock : Bool
  /-- the rate of the last UART_CONFIG -/
  uartBaud : BitVec 24
  /-- the trigger of ARM_BREAK has started the transmitter -/
  txStarted : Bool
  /-- waveforms still owed, oldest first -/
  linePending : List LineItem
  tmoRunning : Bool
  tmoLeft : Nat
  tmoUf : Bool
  edgeEnabled : Bool
  /-- the levels of STAT_IN[5:0] -/
  statIn : Pins
  deriving DecidableEq, Repr, Inhabited

/-- One step of the environment (00_scope.md R9). -/
inductive EnvEvent where
  | txIdle (level : Bool)
  | rxBlocked (level : Bool)
  | txbl (level : Bool)
  | rxDisabled (level : Bool)
  | ferr (level : Bool)
  | ovf (level : Bool)
  /-- the oldest waveform the line owes is complete -/
  | lineDone
  /-- the transmitter sends the oldest byte of its buffer; the comparator sees `observed` in that slot -/
  | slot (observed : Byte)
  | txComplete (level : Bool)
  /-- a byte arrives from the bus -/
  | rxByte (b : Byte)
  /-- the receive FIFO loses its head byte -/
  | rxLose
  /-- the countdown timer counts one tick -/
  | tmoTick
  /-- the underflow flag of a timer that is not running takes a level -/
  | tmoFlag (level : Bool)
  /-- peer-status input k changes its level -/
  | toggle (k : Fin 6)
  deriving DecidableEq, Repr, Inhabited

/-- One step of one agent (00_scope.md R9), or the reset input (70_reset_and_hazards.md R141). A host access names the
byte offset of its address from LIN_BASE, negative below it, and its size in bytes (log 13). `reset` carries what the
collaborators hold afterwards: R142 and R143 give no value. -/
inductive Event where
  | hostRead (off : Int) (size : Nat)
  | hostWrite (off : Int) (size : Nat) (v : Word)
  | engine
  | detector (k : Fin 6)
  | env (e : EnvEvent)
  | reset (after : Env)
  deriving DecidableEq, Repr, Inhabited

end Sys2Proof.Machine
end

