-- ==== Sys2Proof/Config.lean ====
section
/-! DEFINITION. The parameters and constants of spec/00_scope.md R6, and the free values: what the spec leaves open
without a value is an opaque constant, so that no proof can see it. -/

namespace Sys2Proof

/-- The OPEN parameters of 00_scope.md R6. -/
structure Params where
  fClk : Nat
  prescale : Nat
  breakBits : Nat
  delimBits : Nat
  guardBits : Nat
  timeoutTicks : Nat
  fTmo : Nat
  wakeupPulseTicks : Nat
  wakeupDelayTicks : Nat
  linBase : Nat
  txFifoDepth : Nat
  deriving DecidableEq, Repr, Inhabited

/-- The legal ranges of 00_scope.md R6. -/
structure Params.Legal (p : Params) : Prop where
  fClk : 1 ≤ p.fClk
  prescale : 1 ≤ p.prescale
  breakBits : p.breakBits = 13 ∨ p.breakBits = 14
  delimBits : 1 ≤ p.delimBits
  timeoutTicks : 1 ≤ p.timeoutTicks
  fTmo : 1 ≤ p.fTmo
  wakeupPulseTicks : 1 ≤ p.wakeupPulseTicks
  linBase : p.linBase % 128 = 0
  txFifoDepth : 2 ≤ p.txFifoDepth

/-- The nearest legal parameters; a legal choice is left as it is (`Params.clamp_of_legal`). -/
def Params.clamp (p : Params) : Params :=
  { fClk := max 1 p.fClk
    prescale := max 1 p.prescale
    breakBits := if p.breakBits = 14 then 14 else 13
    delimBits := max 1 p.delimBits
    guardBits := p.guardBits
    timeoutTicks := max 1 p.timeoutTicks
    fTmo := max 1 p.fTmo
    wakeupPulseTicks := max 1 p.wakeupPulseTicks
    wakeupDelayTicks := p.wakeupDelayTicks
    linBase := p.linBase - p.linBase % 128
    txFifoDepth := max 2 p.txFifoDepth }

namespace Config

/-- The implementation's parameters before they are brought into range: nothing is known of them (log 12). -/
opaque rawParams : Params

/-- The implementation's parameters: any legal value (00_scope.md R6). -/
def params : Params := rawParams.clamp

/-- Free value (log 11): what BITTIME holds when BIT_TICKS does not fit its 32 bits, as a function of BIT_TICKS. -/
opaque wideBitTime : Nat → Word

/-- Free value (log 1): the n-th event that State's list does not give. 00_scope.md R9: any enabled step of any agent
may be taken next. -/
opaque freeEvent : Nat → Machine.Event

/-- SYNC (00_scope.md R6). -/
def sync : Byte := 0x55#8

/-- SLEEP_ID (00_scope.md R6, decision D16). -/
def sleepId : FrameId := 0x3C#6

/-- SLEEP_PAYLOAD (00_scope.md R6). -/
def sleepPayload : List Byte := [0x00#8, 0xFF#8, 0xFF#8, 0xFF#8, 0xFF#8, 0xFF#8, 0xFF#8, 0xFF#8]

end Config
end Sys2Proof
end

