-- ==== Sys2Proof/Machine/State.lean ====
section
/-! DEFINITION. The state of the LIN frame engine as plain data, its value after reset, and the reasons a step could
stop. -/

namespace Sys2Proof.Machine

/-- Result codes (30_encoding.md R51). Code 6 is reserved and never written, so it has no constructor. -/
inductive ResultCode where
  | ok
  | invalidParameter
  | invalidRange
  | abort
  | timeout
  | io
  | none
  deriving DecidableEq, Repr

/-- Host-interface error causes (30_encoding.md R52). Codes 8 to 15 are never written. -/
inductive ErrCause where
  | none
  | rsvdOpcode
  | rsvdBits
  | writeWhileBusy
  | notInit
  | alreadyInit
  | badBaud
  | badAccess
  deriving DecidableEq, Repr

/-- The engine's phases (10_state.md R22). Codes 13 to 15 never occur. -/
inductive Phase where
  | idle
  | txArm
  | txWake
  | txHdr
  | txData
  | txChk
  | txWaitc
  | txRxoffWait
  | txColl
  | rqData
  | rqChk
  | rqClean
  | rqCleanWait
  deriving DecidableEq, Repr

/-- The frame commands (10_state.md R23: TX, RQ, SL). -/
inductive FrameOp where
  | tx
  | rq
  | sl
  deriving DecidableEq, Repr

/-- The latched command (10_state.md R23). -/
structure Latch where
  op : FrameOp
  id : FrameId
  txdp : Bool
  len : BitVec 4
  enhEff : Bool
  inj : Bool
  pid : Byte
  chkTx : Byte
  deriving DecidableEq, Repr

/-- The ten error counters (10_state.md R21). -/
structure Counters where
  mChk : Word
  mConf : Word
  mGen : Word
  mTmo : Word
  s0Chk : Word
  s0Conf : Word
  s0Gen : Word
  s1Chk : Word
  s1Conf : Word
  s1Gen : Word
  deriving DecidableEq, Repr

/-- All ten counters at 0 (10_state.md R21, 44_counters_sleep.md R117). -/
def Counters.zero : Counters := ⟨0, 0, 0, 0, 0, 0, 0, 0, 0, 0⟩

/-- The state. The registers of 10_state.md R14 to R21, the engine state of R22 to R24 and the sampling state of R26;
`env` holds the collaborators (R27 to R30). STATUS, FRAMEINFO, DATA0, DATA1 and STATIN are views of these fields, so
that nothing is stored twice. The last five fields are the model's own (log 17). -/
structure State where
  cmd : Word
  busy : Bool
  initDone : Bool
  sleeping : Bool
  result : ResultCode
  err : Bool
  errCause : ErrCause
  rxCount : BitVec 4
  baud : BitVec 24
  bitTime : Word
  breakTime : Word
  guardTime : Word
  lastPid : Byte
  lastChk : Byte
  data : Vector Byte 8
  cnt : Counters
  phase : Phase
  latch : Latch
  idx : BitVec 4
  sum : Byte
  pend : ResultCode
  pinPrev : Pins
  env : Env
  /-- the events still to come, oldest first -/
  events : List Event
  /-- how many events were drawn from `Config.freeEvent` -/
  draws : Nat
  /-- what the last host read returned -/
  hostData : Word
  /-- the actions issued to the collaborators, oldest first -/
  acts : List Action
  /-- what has gone over the line, oldest first -/
  bus : List BusItem
  deriving DecidableEq, Repr

/-- Nothing stops this machine: "The block raises no trap, exception or fault to the host processor"
(60_exceptions.md R126), and a hang is the absence of an engine step (70_reset_and_hazards.md R146). So no constructor
(log 19). -/
inductive Fault
  deriving DecidableEq, Repr

/-- Why a step could be refused. -/
inductive Refusal where
  /-- raised by an arm of `exec` for a command without a meaning; no arm does so, and it would be safe -/
  | notModelled (mnemonic : String)
  deriving DecidableEq, Repr

/-- What a step answers. -/
abbrev Result := Host.Outcome State Fault Refusal

/-- The latched command after reset (70_reset_and_hazards.md R142). -/
def Latch.reset : Latch :=
  { op := .tx, id := 0, txdp := false, len := 0, enhEff := false, inj := false, pid := 0, chkTx := 0 }

/-- The collaborators in `State.reset`. DESIGN CHOICE, unsafe (log 3): R142 forbids assuming a value, so no statement
rests on these; the reset event takes any value. -/
def Env.powerOn : Env :=
  { txIdle := false, rxBlocked := false, txbl := false, txc := false, rxDisabled := false, coll := false,
    ferr := false, ovf := false, txBuf := [], slots := [], rxFifo := [], rxEnabled := false, rxBlock := false,
    uartBaud := 0, txStarted := false, linePending := [], tmoRunning := false, tmoLeft := 0, tmoUf := false,
    edgeEnabled := false, statIn := 0 }

/-- The block's own state after reset with the collaborators at `e` (70_reset_and_hazards.md R142): pin_prev takes the
levels of STAT_IN at reset release. -/
def State.resetWith (e : Env) : State :=
  { cmd := 0, busy := false, initDone := false, sleeping := false, result := .none, err := false,
    errCause := .none, rxCount := 0, baud := 0, bitTime := 0, breakTime := 0, guardTime := 0, lastPid := 0,
    lastChk := 0, data := Vector.replicate 8 0, cnt := Counters.zero, phase := .idle, latch := Latch.reset,
    idx := 0, sum := 0, pend := .ok, pinPrev := e.statIn, env := e, events := [], draws := 0, hostData := 0,
    acts := [], bus := [] }

/-- The machine right after power-on reset. -/
def State.reset : State := State.resetWith Env.powerOn

end Sys2Proof.Machine
end

