-- ==== Sys2Proof/Machine/Operands.lean ====
section
/-! DEFINITION. The operands of the commands: the DATA buffer and its two words, the payload of a frame, and the shared
parameter check. -/

namespace Sys2Proof.Machine

/-- DATA[k] (10_state.md R20); the buffer has eight bytes, and no reachable state asks for another (log 15). -/
def dataByte (d : Vector Byte 8) (k : Nat) : Byte := d[k]?.getD 0

/-- DATA[k] <- b (43_request.md R104). -/
def setDataByte (k : Nat) (b : Byte) (d : Vector Byte 8) : Vector Byte 8 := d.setIfInBounds k b

/-- Four bytes of the buffer from `base` on as a word, DATA[base] lowest (10_state.md R20, 20_memory.md R36). -/
def dataWord (base : Nat) (d : Vector Byte 8) : Word :=
  wordOfBytes (dataByte d base) (dataByte d (base + 1)) (dataByte d (base + 2)) (dataByte d (base + 3))

/-- A word stored into four bytes of the buffer from `base` on (10_state.md R20, 20_memory.md R36). -/
def setDataWord (base : Nat) (v : Word) (d : Vector Byte 8) : Vector Byte 8 :=
  setDataByte (base + 3) (v.extractLsb' 24 8) (setDataByte (base + 2) (v.extractLsb' 16 8)
    (setDataByte (base + 1) (v.extractLsb' 8 8) (setDataByte base (v.extractLsb' 0 8) d)))

/-- The payload of a frame: DATA for TRANSMIT, SLEEP_PAYLOAD for SLEEP (42_transmit.md R86). -/
def payload (op : FrameOp) (d : Vector Byte 8) : List Byte :=
  match op with
  | .tx => d.toList
  | .rq => d.toList
  | .sl => Config.sleepPayload

/-- payload[k] (42_transmit.md R90); eight bytes exist, and no reachable state asks for another (log 15). -/
def payloadByte (op : FrameOp) (d : Vector Byte 8) (k : Nat) : Byte := (payload op d).getD k 0

/-- `check_params(id, dp, len)`: range, then DP against LEN, then the length (42_transmit.md R85). -/
def checkParams (id : FrameId) (dp : Bool) (len : Nat) : ResultCode :=
  if id.toNat ≥ 0x3E then .invalidRange
  else if dp != decide (len ≠ 0) then .invalidParameter
  else if len > 8 then .invalidParameter
  else .ok

end Sys2Proof.Machine
end

