-- ==== Sys2Proof/Machine/Flags.lean ====
section
/-! DEFINITION. The codes and fields of the status registers, the sampling of the collaborators' flags, and single bits
of the peer-status inputs. -/

namespace Sys2Proof.Machine

/-- 30_encoding.md R51. -/
def ResultCode.code : ResultCode → BitVec 3
  | .ok => 0
  | .invalidParameter => 1
  | .invalidRange => 2
  | .abort => 3
  | .timeout => 4
  | .io => 5
  | .none => 7

/-- 30_encoding.md R52. -/
def ErrCause.code : ErrCause → BitVec 4
  | .none => 0
  | .rsvdOpcode => 1
  | .rsvdBits => 2
  | .writeWhileBusy => 3
  | .notInit => 4
  | .alreadyInit => 5
  | .badBaud => 6
  | .badAccess => 7

/-- 10_state.md R22. -/
def Phase.code : Phase → BitVec 4
  | .idle => 0
  | .txArm => 1
  | .txWake => 2
  | .txHdr => 3
  | .txData => 4
  | .txChk => 5
  | .txWaitc => 6
  | .txRxoffWait => 7
  | .txColl => 8
  | .rqData => 9
  | .rqChk => 10
  | .rqClean => 11
  | .rqCleanWait => 12

/-- STATUS, from bit 31 down: 0, PHASE, 0, RXCOUNT, ERR_CAUSE, 0, ERR, 0, RESULT, 0, SLEEPING, INIT_DONE, BUSY
(10_state.md R16). -/
def statusWord (s : State) : Word :=
  0#4 ++ s.phase.code ++ 0#4 ++ s.rxCount ++ s.errCause.code ++ 0#3 ++ flagBit s.err ++ 0#1 ++
    s.result.code ++ 0#1 ++ flagBit s.sleeping ++ flagBit s.initDone ++ flagBit s.busy

/-- FRAMEINFO, from bit 31 down: 0, RX_SUM, LAST_CHK, LAST_PID (10_state.md R19). -/
def frameInfoWord (s : State) : Word := 0#8 ++ s.sum ++ s.lastChk ++ s.lastPid

/-- What one sample of the collaborators' receive flags says (43_request.md R103). -/
inductive Poll where
  | none
  | tmo
  | err
  | byte (b : Byte)
  deriving DecidableEq, Repr

/-- RXDATAV (10_state.md R28): a byte is at the head of the receive FIFO. -/
def Env.rxDataV (e : Env) : Bool := !e.rxFifo.isEmpty

/-- `poll()`: timeout before frame or overrun error before byte available (43_request.md R103). -/
def poll (e : Env) : Poll :=
  if e.tmoUf then .tmo
  else if e.ferr || e.ovf then .err
  else match e.rxFifo with
    | [] => .none
    | b :: _ => .byte b

/-- Bit k of the peer-status levels set to `b`. -/
def setPin (pins : Pins) (k : Fin 6) (b : Bool) : Pins :=
  if b then pins ||| (1#6 <<< k.val) else pins &&& ~~~ (1#6 <<< k.val)

/-- The counter of peer-status input k counts one toggle (44_counters_sleep.md R118, R120). -/
def Counters.incPin (k : Fin 6) (c : Counters) : Counters :=
  match k with
  | 0 => { c with s0Chk := c.s0Chk + 1 }
  | 1 => { c with s1Chk := c.s1Chk + 1 }
  | 2 => { c with s0Conf := c.s0Conf + 1 }
  | 3 => { c with s1Conf := c.s1Conf + 1 }
  | 4 => { c with s0Gen := c.s0Gen + 1 }
  | 5 => { c with s1Gen := c.s1Gen + 1 }

/-- `inc(CNT_M_CHK)` (44_counters_sleep.md R118). -/
def Counters.incMChk (c : Counters) : Counters := { c with mChk := c.mChk + 1 }

/-- `inc(CNT_M_CONF)` (44_counters_sleep.md R118). -/
def Counters.incMConf (c : Counters) : Counters := { c with mConf := c.mConf + 1 }

/-- `inc(CNT_M_GEN)` (44_counters_sleep.md R118). -/
def Counters.incMGen (c : Counters) : Counters := { c with mGen := c.mGen + 1 }

/-- `inc(CNT_M_TMO)` (44_counters_sleep.md R118). -/
def Counters.incMTmo (c : Counters) : Counters := { c with mTmo := c.mTmo + 1 }

end Sys2Proof.Machine
end

