-- ==== Sys2Proof/Machine/Collaborators.lean ====
section
/-! DEFINITION. The environment: what an action does to the collaborators (10_state.md R29) and the steps the
environment may take, each within the duties of R30. An environment event whose duty forbids it leaves the state as it
is. -/

namespace Sys2Proof.Machine

/-- The effect of an action on the collaborators (10_state.md R29; duties 1 to 7 of R30; logs 5, 9, 10). -/
def Env.act (a : Action) (e : Env) : Env :=
  match a with
  | .flush =>
    { e with
      txBuf := [], slots := [], rxFifo := [], coll := false, txc := false, ferr := false, ovf := false
      txStarted := false, linePending := [] }
  | .rxEnable => { e with rxEnabled := true }
  | .rxBlock on => { e with rxBlock := on }
  | .wakeupPulse => { e with linePending := e.linePending ++ [.wake] }
  | .txWrite b => { e with txBuf := e.txBuf ++ [b], txc := false }
  | .armBreak => { e with linePending := e.linePending ++ [.brk] }
  | .rxDisable => { e with rxEnabled := false }
  | .rxPop => { e with rxFifo := e.rxFifo.tail }
  | .tmoStart n => { e with tmoRunning := true, tmoLeft := n, tmoUf := false }
  | .tmoStop => { e with tmoRunning := false }
  | .uartConfig baud => { e with uartBaud := baud }
  | .edgeEnable => { e with edgeEnabled := true }

/-- The oldest waveform the line owes goes out; the end of a break's delimiter starts the transmitter
(40_bit_timing.md R64, R69). -/
def envLineDone (s : State) : State :=
  match s.env.linePending with
  | [] => s
  | .wake :: rest => { s with env := { s.env with linePending := rest }, bus := s.bus ++ [.wake] }
  | .brk :: rest =>
    { s with env := { s.env with linePending := rest, txStarted := true }, bus := s.bus ++ [.brk] }

/-- The transmitter sends the oldest byte of its buffer, once started and with no waveform owed (40_bit_timing.md R64,
42_transmit.md R89). A byte observed that differs from the byte sent raises COLL (10_state.md R30 duty 2, 42_transmit.md
R97; log 7). -/
def envSlot (observed : Byte) (s : State) : State :=
  match s.env.txStarted, s.env.linePending, s.env.txBuf with
  | true, [], b :: rest =>
    { s with
      env := { s.env with
        txBuf := rest, slots := s.env.slots ++ [(b, observed)], coll := s.env.coll || observed != b }
      bus := s.bus ++ [.byte b observed] }
  | _, _, _ => s

/-- TXC takes a level; it may be 1 only when every byte written since the last FLUSH has been sent (10_state.md R30
duty 7). -/
def envTxComplete (level : Bool) (s : State) : State :=
  if level && !s.env.txBuf.isEmpty then s else { s with env := { s.env with txc := level } }

/-- A byte arrives; it enters the receive FIFO unless the receive path is blocked (10_state.md R30 duty 5; log 6). -/
def envRxByte (b : Byte) (s : State) : State :=
  if s.env.rxBlock then s else { s with env := { s.env with rxFifo := s.env.rxFifo ++ [b] } }

/-- The running countdown timer counts one tick; the last one raises TMO_UF (10_state.md R30 duty 3). -/
def envTmoTick (s : State) : State :=
  if s.env.tmoRunning then
    match s.env.tmoLeft with
    | 0 => s
    | n + 1 => { s with env := { s.env with tmoLeft := n, tmoUf := s.env.tmoUf || n == 0 } }
  else s

/-- TMO_UF of a timer that is not running takes a level: no duty speaks of it (10_state.md R30; log 10). -/
def envTmoFlag (level : Bool) (s : State) : State :=
  if s.env.tmoRunning then s else { s with env := { s.env with tmoUf := level } }

/-- Input k changes its level. Once the detector runs, an input does not change again before its last toggle was
counted (10_state.md R30 duty 8; log 8). -/
def envToggle (k : Fin 6) (s : State) : State :=
  if s.initDone && s.env.statIn.getLsbD k.val != s.pinPrev.getLsbD k.val then s
  else { s with env := { s.env with statIn := setPin s.env.statIn k (!s.env.statIn.getLsbD k.val) } }

/-- One environment step (00_scope.md R9, 10_state.md R30). -/
def envStep (e : EnvEvent) (s : State) : State :=
  match e with
  | .txIdle b => { s with env := { s.env with txIdle := b } }
  | .rxBlocked b => { s with env := { s.env with rxBlocked := b } }
  | .txbl b => { s with env := { s.env with txbl := b } }
  | .rxDisabled b => { s with env := { s.env with rxDisabled := b } }
  | .ferr b => { s with env := { s.env with ferr := b } }
  | .ovf b => { s with env := { s.env with ovf := b } }
  | .lineDone => envLineDone s
  | .slot observed => envSlot observed s
  | .txComplete b => envTxComplete b s
  | .rxByte b => envRxByte b s
  | .rxLose => { s with env := { s.env with rxFifo := s.env.rxFifo.tail } }
  | .tmoTick => envTmoTick s
  | .tmoFlag b => envTmoFlag b s
  | .toggle k => envToggle k s

end Sys2Proof.Machine
end

