-- ==== Sys2Proof/Machine/Ops.lean ====
section
/-! DEFINITION. The operations the commands and the engine share: issuing an action, refusing a host access, ending a
command, accepting a command, starting a frame, hardware reset. -/

namespace Sys2Proof.Machine

/-- `act(a)`: issues an action to the collaborators (00_scope.md R8, 10_state.md R29). -/
def act (a : Action) (s : State) : State := { s with env := s.env.act a, acts := s.acts ++ [a] }

/-- Several actions "take effect in the order written" (00_scope.md R8). -/
def actAll (as : List Action) (s : State) : State := as.foldl (fun t a => act a t) s

/-- `refuse(cause)`: ERR is set and the first cause kept; nothing else (60_exceptions.md R127, R128). This is the
machine's one way of taking a host-interface error. -/
def refuse (cause : ErrCause) (s : State) : State :=
  { s with err := true, errCause := if s.err then s.errCause else cause }

/-- `finish(r)`: the end of a command, and the block's return (00_scope.md R8, 60_exceptions.md R132). -/
def finish (r : ResultCode) (s : State) : State := { s with result := r, busy := false, phase := .idle }

/-- A command that completes in its own step records its result (40_bit_timing.md R59, 42_transmit.md R85). -/
def setResult (r : ResultCode) (s : State) : State := { s with result := r }

/-- CMD keeps the accepted word (10_state.md R15, 30_encoding.md R49). -/
def storeCmd (i : Instr) (s : State) : State := { s with cmd := encode i }

/-- Acceptance of a command whose word decodes (30_encoding.md R49, checks 1 and 4): a refusal, or the word stored and
the command executed in the same step. `needsInit` is the map's column "needs INIT_DONE" (R48). -/
def accept (needsInit : Bool) (i : Instr) (run : State → State) (s : State) : Result :=
  if s.busy then .next (refuse .writeWhileBusy s)
  else if needsInit && !s.initDone then .next (refuse .notInit s)
  else .next (run (storeCmd i s))

/-- The latched command of a frame (42_transmit.md R86). The payload of a header-only frame is empty. -/
def latchFrame (op : FrameOp) (id : FrameId) (txdp : Bool) (len : BitVec 4) (enh inj : Bool)
    (d : Vector Byte 8) : Latch :=
  let pid := encodePid id
  let enhEff := enhEffective enh id
  { op := op, id := id, txdp := txdp, len := len, enhEff := enhEff, inj := inj, pid := pid
    chkTx := injectError inj (computeChecksum (checksumSeed enhEff pid)
      ((payload op d).take (if txdp then len.toNat else 0))) }

/-- `start_frame` (42_transmit.md R86). -/
def startFrame (op : FrameOp) (id : FrameId) (txdp : Bool) (len : BitVec 4) (enh inj : Bool) (s : State) : State :=
  let t := actAll [.flush, .rxEnable, .rxBlock true] s
  { t with latch := latchFrame op id txdp len enh inj s.data, idx := 0, busy := true, phase := .txArm }

/-- A hardware reset in any phase (70_reset_and_hazards.md R141 to R143): the block's state takes its reset values,
pin_prev the levels at release, and the collaborators hold what the reset left them. The outside's own records go on
(log 4). -/
def hardReset (after : Env) (s : State) : State :=
  { State.resetWith after with
    events := s.events, draws := s.draws, hostData := s.hostData, acts := s.acts, bus := s.bus }

end Sys2Proof.Machine
end

