-- ==== Sys2Proof/Machine/Counters.lean ====
section
/-! DEFINITION. SLEEP, RESET_COUNTERS and the peer-status detector (spec/44_counters_sleep.md). -/

namespace Sys2Proof.Machine

/-- The effect of an accepted SLEEP: skipped while the bus sleeps unless forced, else the sleep frame
(44_counters_sleep.md R114, R115). -/
def runSleep (f : CmdFields) (s : State) : State :=
  if s.sleeping && !f.force then setResult .ok s
  else startFrame .sl Config.sleepId true 8#4 false false s

/-- SLEEP (44_counters_sleep.md R114). -/
def execSleep (f : CmdFields) (s : State) : Result := accept true (.sleep f) (runSleep f) s

/-- The effect of RESET_COUNTERS (44_counters_sleep.md R117). -/
def runResetCounters (s : State) : State := { s with cnt := Counters.zero, result := .ok }

/-- RESET_COUNTERS (44_counters_sleep.md R117). -/
def execResetCounters (f : CmdFields) (s : State) : Result :=
  accept false (.resetCounters f) runResetCounters s

/-- The detector can count input k: INIT_DONE, and the level differs from the last sample (44_counters_sleep.md R121). -/
def detectorEnabled (k : Fin 6) (s : State) : Bool :=
  s.initDone && s.env.statIn.getLsbD k.val != s.pinPrev.getLsbD k.val

/-- One step of the peer-status detector on input k (44_counters_sleep.md R121). -/
def detectorStep (k : Fin 6) (s : State) : State :=
  if detectorEnabled k s then
    { s with pinPrev := setPin s.pinPrev k (s.env.statIn.getLsbD k.val), cnt := s.cnt.incPin k }
  else s

end Sys2Proof.Machine
end

