-- ==== Sys2Proof/Machine/Request.lean ====
section
/-! DEFINITION. The REQUEST command and the receive phases of the engine (spec/43_request.md). -/

namespace Sys2Proof.Machine

/-- The start of a REQUEST that passed its check: the timer, the frame, the accumulator's seed, RXCOUNT
(43_request.md R100, R101). -/
def startRequest (timeoutTicks : Nat) (f : CmdFields) (s : State) : State :=
  let t := startFrame .rq f.id false (BitVec.ofNat 4 f.len) f.enh false (act (.tmoStart timeoutTicks) s)
  { t with sum := checksumSeed t.latch.enhEff t.latch.pid, rxCount := 0 }

/-- The effect of an accepted REQUEST (43_request.md R100). -/
def runRequest (timeoutTicks : Nat) (f : CmdFields) (s : State) : State :=
  match checkParams f.id f.dp f.len with
  | .ok => startRequest timeoutTicks f s
  | r => setResult r s

/-- REQUEST for a given TIMEOUT_TICKS (43_request.md R100). -/
def requestWith (timeoutTicks : Nat) (f : CmdFields) (s : State) : Result :=
  accept true (.request f) (runRequest timeoutTicks f) s

/-- REQUEST (43_request.md R100) on this implementation's TIMEOUT_TICKS. -/
def execRequest (f : CmdFields) (s : State) : Result := requestWith Config.params.timeoutTicks f s

/-- The timeout outcome of a receive poll (43_request.md R104, R105). -/
def receiveTimeout (s : State) : State :=
  { s with cnt := s.cnt.incMTmo, pend := .timeout, phase := .rqClean }

/-- The frame-error or overrun outcome of a receive poll (43_request.md R104, R105). -/
def receiveError (s : State) : State :=
  { s with cnt := s.cnt.incMGen, pend := .io, phase := .rqClean }

/-- A data byte arrives in RQ_DATA (43_request.md R104). -/
def receiveData (b : Byte) (s : State) : State :=
  { act .rxPop s with
    data := setDataByte s.idx.toNat b s.data, sum := acc s.sum b, idx := s.idx + 1, rxCount := s.idx + 1
    phase := if s.idx + 1 = s.latch.len then .rqChk else .rqData }

/-- The checksum byte arrives in RQ_CHK (43_request.md R105, 41_frame_encoder.md R79). -/
def receiveChecksum (c : Byte) (s : State) : State :=
  let t := act .rxPop s
  if acc s.sum c = 0xFF#8 then
    { t with lastChk := c, sum := acc s.sum c, pend := .ok, phase := .rqClean }
  else
    { t with lastChk := c, sum := acc s.sum c, cnt := s.cnt.incMChk, pend := .io, phase := .rqClean }

/-- RQ_DATA (43_request.md R104). -/
def engRqData (s : State) : State :=
  match poll s.env with
  | .none => s
  | .tmo => receiveTimeout s
  | .err => receiveError s
  | .byte b => receiveData b s

/-- RQ_CHK (43_request.md R105). -/
def engRqChk (s : State) : State :=
  match poll s.env with
  | .none => s
  | .tmo => receiveTimeout s
  | .err => receiveError s
  | .byte c => receiveChecksum c s

/-- RQ_CLEAN (43_request.md R106). -/
def engRqClean (s : State) : State :=
  { actAll [.tmoStop, .rxDisable] s with phase := .rqCleanWait }

/-- RQ_CLEAN_WAIT (43_request.md R107). -/
def engRqCleanWait (s : State) : State := if s.env.rxDisabled then finish s.pend s else s

end Sys2Proof.Machine
end

