-- ==== Sys2Proof/Machine/Timing.lean ====
section
/-! DEFINITION. The bit-timing unit, NOP and INIT (spec/40_bit_timing.md). -/

namespace Sys2Proof.Machine

/-- BIT_TICKS = floor(F_CLK / (PRESCALE * BAUD)), exact and then truncated (40_bit_timing.md R61). -/
def bitTicks (p : Params) (baud : Nat) : Nat := p.fClk / (p.prescale * baud)

/-- What BITTIME holds: BIT_TICKS, or a free value when 32 bits cannot hold it (10_state.md R18; log 11). -/
def bitTimeReg (bt : Nat) : Word := if bt < 2 ^ 32 then BitVec.ofNat 32 bt else Config.wideBitTime bt

/-- BREAK_TICKS modulo 2^32 (40_bit_timing.md R62). -/
def breakTicks (p : Params) (bt : Nat) : Word := BitVec.ofNat 32 (p.breakBits * bt)

/-- DELIM_TICKS modulo 2^32; it has no register (40_bit_timing.md R62). -/
def delimTicks (p : Params) (bt : Nat) : Word := BitVec.ofNat 32 (p.delimBits * bt)

/-- GUARD_TICKS modulo 2^32 (40_bit_timing.md R62). -/
def guardTicks (p : Params) (bt : Nat) : Word := BitVec.ofNat 32 (p.guardBits * bt)

/-- NOP (40_bit_timing.md R59). -/
def execNop (f : CmdFields) (s : State) : Result := accept false (.nop f) (setResult .ok) s

/-- The effect of an accepted INIT with BIT_TICKS `bt` (40_bit_timing.md R60). -/
def runInit (p : Params) (bt : Nat) (s : State) : State :=
  let t := actAll [.uartConfig s.baud, .edgeEnable] s
  { t with
    bitTime := bitTimeReg bt, breakTime := breakTicks p bt, guardTime := guardTicks p bt
    pinPrev := s.env.statIn, initDone := true, result := .ok }

/-- INIT for given parameters: its own checks ALREADY_INIT and BAD_BAUD after BUSY, then its effect
(40_bit_timing.md R60, 60_exceptions.md R130). -/
def initWith (p : Params) (f : CmdFields) (s : State) : Result :=
  if s.busy then .next (refuse .writeWhileBusy s)
  else if s.initDone then .next (refuse .alreadyInit s)
  else if s.baud = 0 then .next (refuse .badBaud s)
  else if bitTicks p s.baud.toNat = 0 then .next (refuse .badBaud s)
  else .next (runInit p (bitTicks p s.baud.toNat) (storeCmd (.init f) s))

/-- INIT (40_bit_timing.md R60) on this implementation's parameters. -/
def execInit (f : CmdFields) (s : State) : Result := initWith Config.params f s

end Sys2Proof.Machine
end

