-- ==== Sys2Proof/Machine/Transmit.lean ====
section
/-! DEFINITION. The TRANSMIT command and the transmit phases of the engine (spec/42_transmit.md). Each phase function is
one engine step; where its await does not hold it leaves the state as it is ("hold", R95; log 14). -/

namespace Sys2Proof.Machine

/-- The effect of an accepted TRANSMIT (42_transmit.md R84, R85). -/
def runTransmit (f : CmdFields) (s : State) : State :=
  match checkParams f.id f.dp f.len with
  | .ok => startFrame .tx f.id f.dp (BitVec.ofNat 4 f.len) f.enh f.inj s
  | r => setResult r s

/-- TRANSMIT (42_transmit.md R84). -/
def execTransmit (f : CmdFields) (s : State) : Result := accept true (.transmit f) (runTransmit f) s

/-- TX_ARM (42_transmit.md R87). -/
def engTxArm (s : State) : State :=
  if s.env.txIdle && s.env.rxBlocked then { s with phase := if s.sleeping then .txWake else .txHdr } else s

/-- TX_WAKE (42_transmit.md R88). -/
def engTxWake (s : State) : State :=
  { act .wakeupPulse s with sleeping := false, phase := .txHdr }

/-- TX_HDR (42_transmit.md R89). -/
def engTxHdr (s : State) : State :=
  { actAll [.txWrite Config.sync, .txWrite s.latch.pid, .armBreak] s with
    lastPid := s.latch.pid, phase := if s.latch.txdp then .txData else .txWaitc }

/-- TX_DATA: one step sends one byte (42_transmit.md R90). -/
def engTxData (s : State) : State :=
  if s.env.txbl then
    { act (.txWrite (payloadByte s.latch.op s.data s.idx.toNat)) s with
      idx := s.idx + 1, phase := if s.idx + 1 = s.latch.len then .txChk else .txData }
  else s

/-- TX_CHK (42_transmit.md R91). -/
def engTxChk (s : State) : State :=
  if s.env.txbl then { act (.txWrite s.latch.chkTx) s with lastChk := s.latch.chkTx, phase := .txWaitc } else s

/-- TX_WAITC (42_transmit.md R92). -/
def engTxWaitc (s : State) : State :=
  if s.env.txc then
    if s.latch.txdp then { act .rxDisable s with phase := .txRxoffWait }
    else { act (.rxBlock false) s with phase := .txColl }
  else s

/-- TX_RXOFF_WAIT (42_transmit.md R93). -/
def engTxRxoffWait (s : State) : State :=
  if s.env.rxDisabled then { s with phase := .txColl } else s

/-- TX_COLL's counter: COLL counts one conflict (42_transmit.md R94). -/
def countCollision (s : State) : State := if s.env.coll then { s with cnt := s.cnt.incMConf } else s

/-- TX_COLL's result (42_transmit.md R94). -/
def collResult (e : Env) : ResultCode := if e.coll then .abort else .ok

/-- TX_COLL: COLL is sampled once (42_transmit.md R94, 44_counters_sleep.md R116, 43_request.md R102). -/
def engTxColl (s : State) : State :=
  let t := countCollision s
  match s.latch.op with
  | .tx => finish (collResult s.env) t
  | .sl => finish (collResult s.env) { t with sleeping := true }
  | .rq =>
    if s.env.coll then { t with pend := .abort, phase := .rqClean }
    else { t with idx := 0, phase := if s.latch.len ≠ 0 then .rqData else .rqChk }

end Sys2Proof.Machine
end

