-- ==== Sys2Proof/Machine/Dispatch.lean ====
section
/-! DEFINITION. One arm per command of the opcode table (30_encoding.md R48). -/

namespace Sys2Proof.Machine

/-- The effect of writing the word of command `i` to CMD (10_state.md R15, 30_encoding.md R49). -/
def exec (i : Instr) (s : State) : Host.Outcome State Fault Refusal :=
  match i with
  | .nop f => Sys2Proof.Machine.execNop f s
  | .init f => Sys2Proof.Machine.execInit f s
  | .transmit f => Sys2Proof.Machine.execTransmit f s
  | .request f => Sys2Proof.Machine.execRequest f s
  | .sleep f => Sys2Proof.Machine.execSleep f s
  | .resetCounters f => Sys2Proof.Machine.execResetCounters f s

end Sys2Proof.Machine
end

