-- ==== Sys2Proof/Machine/Engine.lean ====
section
/-! DEFINITION. One step of the engine: the phase says which (10_state.md R22, 42_transmit.md R95, 43_request.md R108). -/

namespace Sys2Proof.Machine

/-- One engine step. In IDLE the engine has none. -/
def engineStep (s : State) : State :=
  match s.phase with
  | .idle => s
  | .txArm => engTxArm s
  | .txWake => engTxWake s
  | .txHdr => engTxHdr s
  | .txData => engTxData s
  | .txChk => engTxChk s
  | .txWaitc => engTxWaitc s
  | .txRxoffWait => engTxRxoffWait s
  | .txColl => engTxColl s
  | .rqData => engRqData s
  | .rqChk => engRqChk s
  | .rqClean => engRqClean s
  | .rqCleanWait => engRqCleanWait s

/-- What the phase awaits (42_transmit.md R95, 43_request.md R108): the engine has a step exactly when this holds. -/
def engineEnabled (s : State) : Bool :=
  match s.phase with
  | .idle => false
  | .txArm => s.env.txIdle && s.env.rxBlocked
  | .txWake => true
  | .txHdr => true
  | .txData => s.env.txbl
  | .txChk => s.env.txbl
  | .txWaitc => s.env.txc
  | .txRxoffWait => s.env.rxDisabled
  | .txColl => true
  | .rqData => poll s.env != .none
  | .rqChk => poll s.env != .none
  | .rqClean => true
  | .rqCleanWait => s.env.rxDisabled

end Sys2Proof.Machine
end

