-- ==== Sys2Proof/Machine/HostPort.lean ====
section
/-! DEFINITION. The register aperture (10_state.md R14, spec/20_memory.md) and the step of each agent. -/

namespace Sys2Proof.Machine

/-- The registers of the map (10_state.md R14). -/
inductive Reg where
  | cmd
  | status
  | baud
  | bitTime
  | breakTime
  | guardTime
  | frameInfo
  | data0
  | data1
  | cntMChk
  | cntMConf
  | cntMGen
  | cntMTmo
  | cntS0Chk
  | cntS0Conf
  | cntS0Gen
  | cntS1Chk
  | cntS1Conf
  | cntS1Gen
  | statIn
  deriving DecidableEq, Repr

/-- Offsets from LIN_BASE (10_state.md R14). -/
def Reg.offset : Reg → Int
  | .cmd => 0x00
  | .status => 0x04
  | .baud => 0x08
  | .bitTime => 0x0C
  | .breakTime => 0x10
  | .guardTime => 0x14
  | .frameInfo => 0x18
  | .data0 => 0x20
  | .data1 => 0x24
  | .cntMChk => 0x40
  | .cntMConf => 0x44
  | .cntMGen => 0x48
  | .cntMTmo => 0x4C
  | .cntS0Chk => 0x50
  | .cntS0Conf => 0x54
  | .cntS0Gen => 0x58
  | .cntS1Chk => 0x60
  | .cntS1Conf => 0x64
  | .cntS1Gen => 0x68
  | .statIn => 0x70

/-- All registers, in the map's order. -/
def Reg.all : List Reg :=
  [.cmd, .status, .baud, .bitTime, .breakTime, .guardTime, .frameInfo, .data0, .data1, .cntMChk, .cntMConf, .cntMGen,
    .cntMTmo, .cntS0Chk, .cntS0Conf, .cntS0Gen, .cntS1Chk, .cntS1Conf, .cntS1Gen, .statIn]

/-- The register at an offset; none at an offset the map leaves out (20_memory.md R34). -/
def Reg.ofOffset (off : Int) : Option Reg := Reg.all.find? fun r => r.offset == off

/-- The value a register shows (10_state.md R15 to R21, R26). -/
def readReg (s : State) : Reg → Word
  | .cmd => s.cmd
  | .status => statusWord s
  | .baud => s.baud.setWidth 32
  | .bitTime => s.bitTime
  | .breakTime => s.breakTime
  | .guardTime => s.guardTime
  | .frameInfo => frameInfoWord s
  | .data0 => dataWord 0 s.data
  | .data1 => dataWord 4 s.data
  | .cntMChk => s.cnt.mChk
  | .cntMConf => s.cnt.mConf
  | .cntMGen => s.cnt.mGen
  | .cntMTmo => s.cnt.mTmo
  | .cntS0Chk => s.cnt.s0Chk
  | .cntS0Conf => s.cnt.s0Conf
  | .cntS0Gen => s.cnt.s0Gen
  | .cntS1Chk => s.cnt.s1Chk
  | .cntS1Conf => s.cnt.s1Conf
  | .cntS1Gen => s.cnt.s1Gen
  | .statIn => s.pinPrev.setWidth 32

/-- The value at an offset: an offset the map leaves out reads 0 (20_memory.md R34). -/
def readOffset (s : State) (off : Int) : Word :=
  match Reg.ofOffset off with
  | some r => readReg s r
  | none => 0

/-- Some byte of the access lies in the 128-byte aperture (20_memory.md R33): it begins inside, or begins below and
reaches in. Other addresses do not belong to the block (R34). R34 and R35 do not place an access that begins below and
reaches in; that it is the block's, and so a bad access, is DEDUCED (log 13). -/
def inAperture (off : Int) (size : Nat) : Bool := decide (off < 128) && (decide (0 ≤ off) || decide (0 < off + size))

/-- The only admitted access: 32 bits wide and aligned (20_memory.md R35). Such an access that begins below the aperture
does not reach into it. -/
def goodAccess (off : Int) (size : Nat) : Bool := size == 4 && off % 4 == 0

/-- The offset by which an event names a host address (20_memory.md R33, R34; log 13). -/
def offsetOf (base addr : Nat) : Int := (addr : Int) - (base : Int)

/-- One host read (20_memory.md R35, R38): no side effect but the value returned, or BAD_ACCESS and 0. -/
def hostRead (off : Int) (size : Nat) (s : State) : State :=
  if !inAperture off size then s
  else if goodAccess off size then { s with hostData := readOffset s off }
  else refuse .badAccess { s with hostData := 0 }

/-- The cause under which a word that is no command is refused, once BUSY = 0 (30_encoding.md R49). A register slot
always holds one word, so `notOneWord` does not come from a CMD write. -/
def rejectCause : Reject → ErrCause
  | .rsvdBits => .rsvdBits
  | .rsvdOpcode => .rsvdOpcode
  | .notOneWord => .badAccess

/-- A write to CMD (30_encoding.md R49): BUSY first, then the word, then the command. -/
def writeCmd (v : Word) (s : State) : Result :=
  match decode v with
  | .ok i => exec i s
  | .error r => .next (refuse (if s.busy then .writeWhileBusy else rejectCause r) s)

/-- A write to a storage register: refused while BUSY = 1 (20_memory.md R38, R39). -/
def writeStorage (store : State → State) (s : State) : State :=
  if s.busy then refuse .writeWhileBusy s else store s

/-- An admitted write to an offset (20_memory.md R38): read-only registers and offsets outside the map ignore it. -/
def writeOffset (off : Int) (v : Word) (s : State) : Result :=
  match Reg.ofOffset off with
  | some .cmd => writeCmd v s
  | some .baud => .next (writeStorage (fun t => { t with baud := v.setWidth 24 }) s)
  | some .data0 => .next (writeStorage (fun t => { t with data := setDataWord 0 v t.data }) s)
  | some .data1 => .next (writeStorage (fun t => { t with data := setDataWord 4 v t.data }) s)
  | _ => .next s

/-- One host write (20_memory.md R35, R38, R39). Width and alignment are tested before BUSY: a bad access to a writable
register while BUSY = 1 records BAD_ACCESS and not WRITE_WHILE_BUSY. DESIGN CHOICE (log 29): R35 names the one, R39 the
other, and 60_exceptions.md R130 does not order them. -/
def hostWrite (off : Int) (size : Nat) (v : Word) (s : State) : Result :=
  if !inAperture off size then .next s
  else if goodAccess off size then writeOffset off v s
  else .next (refuse .badAccess s)

/-- One step of one agent (00_scope.md R9), or the reset input (70_reset_and_hazards.md R141). -/
def handle (e : Event) (s : State) : Result :=
  match e with
  | .hostRead off size => .next (hostRead off size s)
  | .hostWrite off size v => hostWrite off size v s
  | .engine => .next (engineStep s)
  | .detector k => .next (detectorStep k s)
  | .env e => .next (envStep e s)
  | .reset after => .next (hardReset after s)

/-- The next event: the head of the list, or a free value when the list is empty (log 1). -/
def nextEvent (s : State) : Event :=
  match s.events with
  | e :: _ => e
  | [] => Config.freeEvent s.draws

/-- The state with its next event taken out. -/
def popEvent (s : State) : State :=
  match s.events with
  | _ :: rest => { s with events := rest }
  | [] => { s with draws := s.draws + 1 }

/-- The state in which the host writes the table word to CMD next (log 2). -/
def placeCommand (s : State) (nbits w : Nat) : State :=
  { s with events := .hostWrite Reg.cmd.offset 4 (BitVec.ofNat 32 (tableWord nbits w)) :: s.events }

end Sys2Proof.Machine
end

