-- ==== Sys2Proof/Machine/Step.lean ====
section
/-! DEFINITION. One step of the machine: the next event, handled by its agent. -/

namespace Sys2Proof.Machine

/-- One step (00_scope.md R9, 20_memory.md R41: one total order of the agents' steps). -/
def step (s : State) : Host.Outcome State Fault Refusal := handle (nextEvent s) (popEvent s)

/-- The state whose very next step is the host's write of the table word to CMD (log 2). -/
def State.withFetchWord (s : State) (nbits w : Nat) : State := placeCommand s nbits w

end Sys2Proof.Machine
end

