-- ==== Sys2Proof/Machine/Reference.lean ====
section
/-! DEFINITION. The reference environment of 10_state.md R31, used only by vectors and by statements that name it: it
says which environment events come before each engine step. It does not constrain real collaborators. -/

namespace Sys2Proof.Machine

/-- A receive event of a peer script (10_state.md R31): a byte arrives, a frame error, or the timer underflows. -/
inductive RxEvent where
  | byte (b : Byte)
  | frameError
  | timeout
  deriving DecidableEq, Repr

/-- A peer script (10_state.md R31): what slaves drive in transmit slots, one entry for each slot number and byte a slave
drives there, and the receive events after the header. -/
structure PeerScript where
  drives : List (Nat × Byte)
  rx : List RxEvent
  deriving DecidableEq, Repr

/-- The script in which no slave drives the bus and none answers. -/
def PeerScript.silent : PeerScript := ⟨[], []⟩

/-- The byte driven in a slot, 0xFF if none drives it (10_state.md R31). R31's formula has one `peer` byte, its script a
byte for each slave: where several drive one slot, the model takes the AND of their bytes. DESIGN CHOICE (log 30). -/
def PeerScript.peer (ps : PeerScript) (slot : Nat) : Byte :=
  ps.drives.foldl (fun seen drive => if drive.1 = slot then seen &&& drive.2 else seen) 0xFF#8

/-- The wired-AND bus: the observed byte of a slot (10_state.md R31). -/
def wiredAnd (tx peer : Byte) : Byte := tx &&& peer

/-- The bytes waiting in the transmit buffer are sent at once, each observed through the bus (10_state.md R31). -/
def slotEvents (ps : PeerScript) (first : Nat) : List Byte → List EnvEvent
  | [] => []
  | b :: rest => .slot (wiredAnd b (ps.peer first)) :: slotEvents ps (first + 1) rest

/-- The slots of bytes sent one after another from slot `first` on: each with the byte observed (10_state.md R31). -/
def observedSlots (ps : PeerScript) (first : Nat) : List Byte → List (Byte × Byte)
  | [] => []
  | b :: rest => (b, wiredAnd b (ps.peer first)) :: observedSlots ps (first + 1) rest

/-- What a frame leaves on the line: a wakeup pulse if the bus slept, the break, the slots. -/
def lineOf (woken : Bool) (slots : List (Byte × Byte)) : List BusItem :=
  (if woken then [.wake] else []) ++ [.brk] ++ slots.map fun p => .byte p.1 p.2

/-- The phases whose step polls (43_request.md R103). -/
def Phase.polls : Phase → Bool
  | .rqData => true
  | .rqChk => true
  | _ => false

/-- What the head of the receive script presents at a poll; an exhausted script presents the underflow
(10_state.md R31). -/
def rxEvents (ps : PeerScript) (tmoLeft : Nat) : List EnvEvent :=
  match ps.rx with
  | .byte b :: _ => [.rxByte b]
  | .frameError :: _ => [.ferr true]
  | .timeout :: _ => List.replicate tmoLeft .tmoTick
  | [] => List.replicate tmoLeft .tmoTick

/-- What the reference environment does before an engine step at `s` (10_state.md R31): the levels are 1, owed
waveforms and buffered bytes go out, TXC follows, and a poll is presented the head of the script. -/
def refPrepare (ps : PeerScript) (s : State) : List EnvEvent :=
  [.txIdle true, .rxBlocked true, .txbl true, .rxDisabled true] ++
    List.replicate s.env.linePending.length .lineDone ++
    slotEvents ps s.env.slots.length s.env.txBuf ++ [.txComplete true] ++
    (if s.phase.polls then rxEvents ps s.env.tmoLeft else [])

/-- The script after a step: a poll uses up its head (10_state.md R31). -/
def PeerScript.after (ps : PeerScript) (s : State) : PeerScript :=
  if s.phase.polls then { ps with rx := ps.rx.tail } else ps

/-- Several environment steps, one after another. -/
def envAll (es : List EnvEvent) (s : State) : State := es.foldl (fun t e => envStep e t) s

/-- The events of one round: the reference environment's, then one engine step. -/
def refEvents (ps : PeerScript) (s : State) : List Event := (refPrepare ps s).map Event.env ++ [.engine]

/-- One round of the reference environment and the engine. -/
def refRound (ps : PeerScript) (s : State) : State := engineStep (envAll (refPrepare ps s) s)

/-- Rounds in a row; their number is the number of engine steps of 70_reset_and_hazards.md R155. -/
def refRun : Nat → PeerScript → State → State
  | 0, _, s => s
  | n + 1, ps, s => refRun n (ps.after s) (refRound ps s)

end Sys2Proof.Machine
end

