-- ==== Sys2Proof/Machine/Wire.lean ====
section
/-! DEFINITION. The waveforms on the line (40_bit_timing.md R64 to R69, 70_reset_and_hazards.md R156), with the gaps the UART
may leave as arguments. A level is a Bool: false is dominant (low), true is recessive (high). No engine rule reads them
(log 25). -/

namespace Sys2Proof.Machine

/-- The line's level while nothing drives it: an idle line is recessive (40_bit_timing.md R65). -/
def idleLevel : Bool := true

/-- One asynchronous character, in bit-times: a dominant start bit, eight data bits with bit 0 first, a recessive stop
bit (40_bit_timing.md R65). -/
def charBits (b : Byte) : List Bool :=
  false :: (List.range 8).map (fun i => b.getLsbD i) ++ [true]

/-- A gap of some bit-times between characters, in which the line is idle (40_bit_timing.md R66). -/
def gapBits (gap : Nat) : List Bool := List.replicate gap idleLevel

/-- Characters in bus order, each after the gap the UART leaves before its start bit (40_bit_timing.md R66). -/
def spacedBits (chars : List (Nat × Byte)) : List Bool := chars.flatMap fun c => gapBits c.1 ++ charBits c.2

/-- The header waveform in bit-times for given BREAK_BITS, DELIM_BITS and PID, with a gap of any length between SYNC and
the PID; with gap 0 it is the table of 40_bit_timing.md R66. The end of the delimiter starts SYNC (R64). -/
def headerBits (breakBits delimBits gap : Nat) (pid : Byte) : List Bool :=
  List.replicate breakBits false ++ List.replicate delimBits true ++ spacedBits [(0, Config.sync), (gap, pid)]

/-- The response waveform in bit-times: the data bytes and the checksum byte, each after a gap of any length
(20_memory.md R37, 40_bit_timing.md R66). -/
def responseBits (bytes : List (Nat × Byte)) (chk : Nat × Byte) : List Bool := spacedBits (bytes ++ [chk])

/-- Levels with their lengths in bit-timer ticks. -/
abbrev Wave := List (Bool × Nat)

/-- What ARM_BREAK puts on the line: dominant for BREAK_TICKS, recessive for DELIM_TICKS (40_bit_timing.md R64). -/
def breakWave (p : Params) (bt : Nat) : Wave :=
  [(false, (breakTicks p bt).toNat), (true, (delimTicks p bt).toNat)]

/-- What WAKEUP_PULSE puts on the line (40_bit_timing.md R69). -/
def wakeWave (p : Params) : Wave := [(false, p.wakeupPulseTicks), (true, p.wakeupDelayTicks)]

/-- A character in ticks: every bit lasts BIT_TICKS (70_reset_and_hazards.md R156). -/
def charWave (bt : Nat) (b : Byte) : Wave := (charBits b).map fun level => (level, bt)

/-- The idle line for some ticks (40_bit_timing.md R65). -/
def idleWave (ticks : Nat) : Wave := [(idleLevel, ticks)]

/-- What the block drove for one item of the bus record. -/
def BusItem.wave (p : Params) (bt : Nat) : BusItem → Wave
  | .wake => wakeWave p
  | .brk => breakWave p bt
  | .byte sent _ => charWave bt sent

/-- The line as the block drives it: each item of the bus record after the line was idle for some ticks, which no rule
bounds (40_bit_timing.md R66, 70_reset_and_hazards.md R151, R156). -/
def lineWave (p : Params) (bt : Nat) (items : List (Nat × BusItem)) : Wave :=
  items.flatMap fun i => idleWave i.1 ++ i.2.wave p bt

end Sys2Proof.Machine
end

