-- ==== Sys2Proof/Safety.lean ====
section
/-! DEFINITION. What holds of every state a run reaches, in the terms claims use: the invariant of the block and of the
frame in progress, the phase tables as a relation, and the observations claims compare. -/

namespace Sys2Proof.Machine

/-- The phases in which the header and the response of a frame go out (42_transmit.md R87 to R94). -/
def Phase.transmits : Phase → Bool
  | .txArm | .txWake | .txHdr | .txData | .txChk | .txWaitc | .txRxoffWait | .txColl => true
  | .idle | .rqData | .rqChk | .rqClean | .rqCleanWait => false

/-- The phases before the engine leaves the wait for TXC. -/
def Phase.beforeTxc : Phase → Bool
  | .txArm | .txWake | .txHdr | .txData | .txChk | .txWaitc => true
  | .idle | .txRxoffWait | .txColl | .rqData | .rqChk | .rqClean | .rqCleanWait => false

/-- The phases before the header is written. -/
def Phase.beforeHeader : Phase → Bool
  | .txArm | .txWake | .txHdr => true
  | .idle | .txData | .txChk | .txWaitc | .txRxoffWait | .txColl | .rqData | .rqChk | .rqClean | .rqCleanWait => false

/-- The phases of the receive tables (43_request.md R108). -/
def Phase.receives : Phase → Bool
  | .rqData | .rqChk | .rqClean | .rqCleanWait => true
  | .idle | .txArm | .txWake | .txHdr | .txData | .txChk | .txWaitc | .txRxoffWait | .txColl => false

/-- The transitions of 42_transmit.md R95 and 43_request.md R108, by their phases. -/
def Phase.edge : Phase → Phase → Bool
  | .txArm, .txWake | .txArm, .txHdr | .txWake, .txHdr | .txHdr, .txData | .txHdr, .txWaitc
  | .txData, .txData | .txData, .txChk | .txChk, .txWaitc | .txWaitc, .txRxoffWait | .txWaitc, .txColl
  | .txRxoffWait, .txColl | .txColl, .idle | .txColl, .rqClean | .txColl, .rqData | .txColl, .rqChk
  | .rqData, .rqData | .rqData, .rqChk | .rqData, .rqClean | .rqChk, .rqClean | .rqClean, .rqCleanWait
  | .rqCleanWait, .idle => true
  | _, _ => false

/-- The bytes of the frame in bus order: SYNC, PID, and with a response of the master the data bytes and the checksum
byte (20_memory.md R37, 30_encoding.md R53). -/
def frameBytes (l : Latch) (d : Vector Byte 8) : List Byte :=
  [Config.sync, l.pid] ++ (if l.txdp then (payload l.op d).take l.len.toNat ++ [l.chkTx] else [])

/-- How many of a frame's bytes the engine has written in a phase, of `total` in all. -/
def bytesWritten (phase : Phase) (idx : BitVec 4) (total : Nat) : Nat :=
  match phase with
  | .idle | .txArm | .txWake | .txHdr => 0
  | .txData | .txChk => 2 + idx.toNat
  | .txWaitc | .txRxoffWait | .txColl | .rqData | .rqChk | .rqClean | .rqCleanWait => total

/-- The bytes of the frame in progress that the engine has written so far. -/
def writtenBytes (s : State) : List Byte :=
  (frameBytes s.latch s.data).take (bytesWritten s.phase s.idx (frameBytes s.latch s.data).length)

/-- COLL tells whether some slot since the last FLUSH was observed as another byte than was sent (10_state.md R30
duty 2, 42_transmit.md R97). -/
def mismatch (slots : List (Byte × Byte)) : Bool := slots.any fun p => p.2 != p.1

/-- What holds of the latched command while a frame is in progress (10_state.md R23, 42_transmit.md R86). -/
structure LatchInv (l : Latch) (d : Vector Byte 8) : Prop where
  /-- no PID of 0x3E or 0x3F is used (41_frame_encoder.md R72) -/
  idValid : l.id.toNat < 0x3E
  lenLe : l.len.toNat ≤ 8
  pidEq : l.pid = encodePid l.id
  /-- diagnostic identifiers are classic (41_frame_encoder.md R73) -/
  enhValid : l.enhEff = true → l.id.toNat < 0x3C
  txdpLen : l.txdp = true → l.len ≠ 0
  sleepFrame : l.op = .sl →
    l.id = Config.sleepId ∧ l.txdp = true ∧ l.len = 8#4 ∧ l.enhEff = false ∧
      l.inj = false
  request : l.op = .rq → l.txdp = false ∧ l.inj = false
  bareHeader : l.op = .tx → l.txdp = false → l.len = 0
  /-- the checksum byte is that of the payload as it stands (20_memory.md R44, 41_frame_encoder.md R78) -/
  chkEq : l.txdp = true →
    l.chkTx = injectError l.inj (computeChecksum (checksumSeed l.enhEff l.pid)
      ((payload l.op d).take l.len.toNat))

/-- What holds of the engine's position in the frame (42_transmit.md R95, 43_request.md R108). -/
structure PhaseInv (s : State) : Prop where
  dataPhase : s.phase = .txData → s.latch.txdp = true ∧ s.idx.toNat < s.latch.len.toNat
  chkPhase : s.phase = .txChk → s.latch.txdp = true ∧ s.idx = s.latch.len
  rxoffPhase : s.phase = .txRxoffWait → s.latch.txdp = true
  idxHeader : s.phase.beforeHeader = true → s.idx = 0
  receivePhase : s.phase.receives = true → s.latch.op = .rq
  rqDataPhase : s.phase = .rqData → s.idx.toNat < s.latch.len.toNat ∧ s.rxCount = s.idx
  rqChkPhase : s.phase = .rqChk → s.rxCount = s.latch.len
  rxCountHeader : s.latch.op = .rq → s.phase.transmits = true → s.rxCount = 0
  rxCountLen : s.latch.op = .rq → s.rxCount.toNat ≤ s.latch.len.toNat
  /-- the bus was woken before the header (44_counters_sleep.md R116) -/
  wakePhase : s.phase = .txWake → s.sleeping = true
  awake : s.phase ≠ .txArm → s.phase ≠ .txWake → s.sleeping = false
  lastPidEq : s.phase.beforeHeader = false → s.lastPid = s.latch.pid
  /-- the accumulator covers the seed and the bytes stored so far (41_frame_encoder.md R79) -/
  sumEq : s.latch.op = .rq → s.phase.transmits = true ∨ s.phase = .rqData ∨ s.phase = .rqChk →
    s.sum = accum (checksumSeed s.latch.enhEff s.latch.pid) (s.data.toList.take s.rxCount.toNat)
  /-- a REQUEST is to end with OK only on a verified response (43_request.md R105) -/
  pendOk : s.phase = .rqClean ∨ s.phase = .rqCleanWait →
    s.pend = .ok ∧ s.sum = 0xFF#8 ∨ s.pend = .abort ∨ s.pend = .timeout ∨ s.pend = .io

/-- What holds of the collaborators while a frame is in progress (10_state.md R30, 70_reset_and_hazards.md R154,
43_request.md R109). -/
structure EnvInv (s : State) : Prop where
  /-- sent and waiting bytes together are exactly what the engine has written of the frame -/
  sentEq : s.env.slots.map Prod.fst ++ s.env.txBuf = writtenBytes s
  collEq : s.env.coll = mismatch s.env.slots
  txcSent : s.env.txc = true → s.env.txBuf = []
  allSent : s.phase.beforeTxc = false → s.env.txBuf = []
  /-- no break is owed and nothing is sent before ARM_BREAK -/
  unstarted : s.phase.beforeHeader = true → s.env.txStarted = false ∧ LineItem.brk ∉ s.env.linePending
  blocked : s.phase.beforeTxc = true ∨ s.latch.txdp = true → s.env.rxBlock = true ∧ s.env.rxFifo = []
  unblocked : s.phase.beforeTxc = false → s.latch.txdp = false → s.env.rxBlock = false
  receiverOn : s.phase.beforeTxc = true ∨ s.latch.txdp = false ∧ s.phase ≠ .rqCleanWait → s.env.rxEnabled = true
  receiverOff : s.phase.beforeTxc = false ∧ s.latch.txdp = true ∨ s.phase = .rqCleanWait → s.env.rxEnabled = false
  timerOn : s.latch.op = .rq → s.phase ≠ .rqCleanWait → s.env.tmoRunning = true
  timerOff : s.phase = .rqCleanWait → s.env.tmoRunning = false

/-- The invariant: what every step from every state that meets it keeps. -/
structure Inv (s : State) : Prop where
  /-- BUSY is 1 exactly while a frame is in progress (10_state.md R16) -/
  busyIff : s.busy = true ↔ s.phase ≠ .idle
  /-- a frame needs INIT (30_encoding.md R49) -/
  busyInit : s.busy = true → s.initDone = true
  sleepingInit : s.sleeping = true → s.initDone = true
  /-- ERR stands with a cause (60_exceptions.md R127) -/
  errIff : s.err = true ↔ s.errCause ≠ .none
  rxCountLe : s.rxCount.toNat ≤ 8
  /-- the timing registers are 0 until INIT and hold INIT's values from then on (10_state.md R18, 40_bit_timing.md R63) -/
  timingReset : s.initDone = false → s.bitTime = 0 ∧ s.breakTime = 0 ∧ s.guardTime = 0
  timingInit : s.initDone = true → ∃ bt : Nat, 1 ≤ bt ∧ s.bitTime = bitTimeReg bt ∧
    s.breakTime = breakTicks Config.params bt ∧ s.guardTime = guardTicks Config.params bt
  edgesOn : s.initDone = true → s.env.edgeEnabled = true
  latchInv : s.busy = true → LatchInv s.latch s.data
  phaseInv : s.busy = true → PhaseInv s
  envInv : s.busy = true → EnvInv s

/-- What the collaborators hold when a frame has started: FLUSH, RX_ENABLE and RX_BLOCK(1) issued (10_state.md R29, R30
duty 1, 42_transmit.md R86). -/
def Env.frameStart (e : Env) : Env :=
  { e with
    txBuf := [], slots := [], rxFifo := [], coll := false, txc := false, ferr := false, ovf := false
    txStarted := false, linePending := [], rxEnabled := true, rxBlock := true }

/-- Two answers are next states that differ in CMD at most. -/
def AgreeButCmd (a b : Result) : Prop :=
  ∃ s t : State, a = .next s ∧ b = .next t ∧ { s with cmd := 0 } = { t with cmd := 0 }

/-- An event is the host's write of a word to CMD that decodes to `i` (10_state.md R15). -/
def Event.commands (e : Event) (i : Instr) : Prop := ∃ v, e = .hostWrite 0x00 4 v ∧ decode v = .ok i

/-- A command that may start a frame (10_state.md R25). -/
def sendsFrame (i : Instr) : Bool :=
  match i with
  | .transmit _ | .request _ | .sleep _ => true
  | .nop _ | .init _ | .resetCounters _ => false

/-- An event is the reset input (70_reset_and_hazards.md R141). -/
def Event.resets (e : Event) : Prop := ∃ after, e = .reset after

/-- Reserved bits of a command word of value `n`: 7:4, 15:14, 31:24 (30_encoding.md R46). -/
def reservedBits (n : Nat) : Prop := n / 2 ^ 4 % 2 ^ 4 ≠ 0 ∨ n / 2 ^ 14 % 2 ^ 2 ≠ 0 ∨ n / 2 ^ 24 % 2 ^ 8 ≠ 0

/-- The four master counters (10_state.md R21). -/
def Counters.master (c : Counters) : List Word := [c.mChk, c.mConf, c.mGen, c.mTmo]

/-- The six slave counters (10_state.md R21). -/
def Counters.slave (c : Counters) : List Word := [c.s0Chk, c.s0Conf, c.s0Gen, c.s1Chk, c.s1Conf, c.s1Gen]

end Sys2Proof.Machine
end

