-- ==== Sys2Proof/Certificates/Slice0/Obligations.lean ====
section
/-! DEFINITION. The statements for the provers, in the order of OBLIGATIONS.json. Each docstring names the rules of spec/
that the statement formalises, or says what it rests on. -/

open Sys2Proof Sys2Proof.Machine

/-! ## Encoding -/

/-- 30_encoding.md R46, R48: every well-formed command survives its word, as a word, as four bytes, and as the number of
the opcode table; and every word that is a command is the word of that command alone. -/
def Obligations.DecodeEncode : Prop :=
  (∀ i : Instr, i.WellFormed →
    decode (encode i) = .ok i ∧ decodeBytes (bytesOfWord (encode i)) = .ok i ∧
      decodeTableWord 32 (encode i).toNat = some i) ∧
  (∀ (v : Word) (i : Instr), decode v = .ok i → i.WellFormed ∧ encode i = v)

/-- 30_encoding.md R47: the fields of a word as numbers, and when its reserved bits are set. -/
def Obligations.FieldsAreBits : Prop :=
  ∀ v : Word,
    (wordOp v).toNat = v.toNat % 16 ∧
    (wordFields v).id.toNat = v.toNat / 2 ^ 8 % 64 ∧
    (wordFields v).len = v.toNat / 2 ^ 16 % 16 ∧
    ((wordFields v).dp = true ↔ v.toNat / 2 ^ 20 % 2 = 1) ∧
    ((wordFields v).enh = true ↔ v.toNat / 2 ^ 21 % 2 = 1) ∧
    ((wordFields v).inj = true ↔ v.toNat / 2 ^ 22 % 2 = 1) ∧
    ((wordFields v).force = true ↔ v.toNat / 2 ^ 23 % 2 = 1) ∧
    (wordReserved v = true ↔ reservedBits v.toNat)

/-- 30_encoding.md R48 and the opcode table: a word is the command of opcode k, k = 0 to 5, exactly when the bits of the
mask 0xFF00C0FF hold k. -/
def Obligations.DecodeMatchesTable : Prop :=
  ∀ (v : Word) (k : BitVec 4), k.toNat < 6 →
    ((∃ i, decode v = .ok i ∧ i.opcode = k) ↔ v &&& 0xFF00C0FF#32 = k.setWidth 32)

/-- 30_encoding.md R50: what is no command, and why. -/
def Obligations.DecodeRejects : Prop :=
  ∀ v : Word,
    (decode v = .error .rsvdBits ↔ reservedBits v.toNat) ∧
    (decode v = .error .rsvdOpcode ↔ ¬ reservedBits v.toNat ∧ 6 ≤ v.toNat % 16) ∧
    decode v ≠ .error .notOneWord

/-- Words written out from the format of 30_encoding.md R46 (and its examples in R58, R100, R114) decode to the commands
they stand for. -/
def Obligations.SpecWordsDecode : Prop :=
  decode 0b00000000_0000_0000_00_000000_0000_0000#32 = .ok (.nop ⟨0x00, 0, false, false, false, false⟩) ∧
  decode 0b00000000_0000_0000_00_000000_0000_0001#32 = .ok (.init ⟨0x00, 0, false, false, false, false⟩) ∧
  decode 0b00000000_0011_0010_00_010000_0000_0010#32 = .ok (.transmit ⟨0x10, 2, true, true, false, false⟩) ∧
  decode 0b00000000_0101_1000_00_000001_0000_0010#32 = .ok (.transmit ⟨0x01, 8, true, false, true, false⟩) ∧
  decode 0b00000000_0011_0010_00_100001_0000_0011#32 = .ok (.request ⟨0x21, 2, true, true, false, false⟩) ∧
  decode 0b00000000_1000_0000_00_000000_0000_0100#32 = .ok (.sleep ⟨0x00, 0, false, false, false, true⟩) ∧
  decode 0b00000000_0000_0000_00_000000_0000_0101#32 = .ok (.resetCounters ⟨0x00, 0, false, false, false, false⟩) ∧
  decode 0b00000000_0000_0000_00_000000_0000_0110#32 = .error .rsvdOpcode ∧
  decode 0b00000000_0000_0000_01_000000_0000_0010#32 = .error .rsvdBits

/-- A step whose event is the host's write of a command's word to CMD runs that command (10_state.md R15). Around `exec`
the step only takes the event out of the list (log 1); `withFetchWord` places such an event (log 2). -/
def Obligations.StepRunsDecoded : Prop :=
  (∀ (s : State) (v : Word) (rest : List Event) (i : Instr),
    s.events = .hostWrite 0x00 4 v :: rest → decode v = .ok i → step s = exec i { s with events := rest }) ∧
  (∀ (s : State) (nbits w : Nat) (i : Instr),
    decodeTableWord nbits w = some i → step (s.withFetchWord nbits w) = exec i s)

/-! ## Acceptance and the commands -/

/-- 30_encoding.md R49: the checks on a CMD write in their order; a write that passes them runs its command, and CMD holds
the word, but for the refusals of INIT's own checks. -/
def Obligations.CmdWriteOrder : Prop :=
  ∀ (v : Word) (s : State),
    (s.busy = true → hostWrite 0x00 4 v s = .next (refuse .writeWhileBusy s)) ∧
    (s.busy = false → reservedBits v.toNat → hostWrite 0x00 4 v s = .next (refuse .rsvdBits s)) ∧
    (s.busy = false → ¬ reservedBits v.toNat → 6 ≤ v.toNat % 16 →
      hostWrite 0x00 4 v s = .next (refuse .rsvdOpcode s)) ∧
    (s.busy = false → ¬ reservedBits v.toNat → 2 ≤ v.toNat % 16 → v.toNat % 16 ≤ 4 → s.initDone = false →
      hostWrite 0x00 4 v s = .next (refuse .notInit s)) ∧
    (s.busy = false → ¬ reservedBits v.toNat → v.toNat % 16 < 6 →
      (2 ≤ v.toNat % 16 ∧ v.toNat % 16 ≤ 4 → s.initDone = true) →
      ∃ i t, decode v = .ok i ∧ i.opcode.toNat = v.toNat % 16 ∧ hostWrite 0x00 4 v s = exec i s ∧ exec i s = .next t ∧
        (t.cmd = v ∨ v.toNat % 16 = 1 ∧ (t = refuse .alreadyInit s ∨ t = refuse .badBaud s)))

/-- 60_exceptions.md R127: what a refusal records, and the accesses it applies to; R128: the first cause stays. Two points
of the last clause are the model's choice: that an access from below LIN_BASE that reaches into the aperture is a bad
access (log 13), and that a bad access records BAD_ACCESS also where BUSY = 1 and 20_memory.md R39 would name
WRITE_WHILE_BUSY (log 29). -/
def Obligations.RefusalsRecorded : Prop :=
  (∀ (c : ErrCause) (s : State), s.err = false → refuse c s = { s with err := true, errCause := c }) ∧
  (∀ (c : ErrCause) (s : State), s.err = true → refuse c s = s) ∧
  (∀ (v : Word) (s : State), s.busy = true → hostWrite 0x00 4 v s = .next (refuse .writeWhileBusy s)) ∧
  (∀ (v : Word) (s : State), s.busy = false → reservedBits v.toNat →
    hostWrite 0x00 4 v s = .next (refuse .rsvdBits s)) ∧
  (∀ (v : Word) (s : State), s.busy = false → ¬ reservedBits v.toNat → 6 ≤ v.toNat % 16 →
    hostWrite 0x00 4 v s = .next (refuse .rsvdOpcode s)) ∧
  (∀ (i : Instr) (s : State), sendsFrame i = true → s.busy = false → s.initDone = false →
    exec i s = .next (refuse .notInit s)) ∧
  (∀ (f : CmdFields) (s : State), s.busy = false → s.initDone = true →
    exec (.init f) s = .next (refuse .alreadyInit s)) ∧
  (∀ (f : CmdFields) (s : State), s.busy = false → s.initDone = false → s.baud = 0 →
    exec (.init f) s = .next (refuse .badBaud s)) ∧
  (∀ (p : Params) (f : CmdFields) (s : State), s.busy = false → s.initDone = false →
    p.fClk / (p.prescale * s.baud.toNat) = 0 → initWith p f s = .next (refuse .badBaud s)) ∧
  (∀ (f : CmdFields) (s : State), exec (.init f) s = initWith Config.params f s) ∧
  (∀ (v : Word) (off : Int) (s : State), off = 0x08 ∨ off = 0x20 ∨ off = 0x24 → s.busy = true →
    hostWrite off 4 v s = .next (refuse .writeWhileBusy s)) ∧
  (∀ (v : Word) (off : Int) (size : Nat) (s : State), off < 128 → 0 ≤ off ∨ 0 < off + size →
    ¬ (size = 4 ∧ off % 4 = 0) →
    hostWrite off size v s = .next (refuse .badAccess s) ∧
      hostRead off size s = refuse .badAccess { s with hostData := 0 })

/-- 40_bit_timing.md R59: NOP, as the command and as the word written to CMD. -/
def Obligations.NopCompletes : Prop :=
  (∀ (f : CmdFields) (s : State), s.busy = false →
    exec (.nop f) s = .next { s with cmd := encode (.nop f), result := .ok }) ∧
  (∀ (v : Word) (s : State), v.toNat % 16 = 0 →
    hostWrite 0x00 4 v s =
      if s.busy = true then .next (refuse .writeWhileBusy s)
      else if wordReserved v = true then .next (refuse .rsvdBits s)
      else .next { s with cmd := v, result := .ok }) ∧
  statusWord State.reset = 0x00000070#32 ∧
  (∃ t, hostWrite 0x00 4 0x00000000#32 State.reset = .next t ∧ statusWord t = 0x00000000#32)

/-- 40_bit_timing.md R60, R61, R62: INIT sets the block up, for any parameters and so for the implementation's own.
BIT_TICKS that does not fit BITTIME's 32 bits leaves a free value there (log 11). -/
def Obligations.InitSetsUp : Prop :=
  ∀ (p : Params) (f : CmdFields) (s : State), s.busy = false → s.initDone = false → s.baud ≠ 0 →
    1 ≤ p.fClk / (p.prescale * s.baud.toNat) →
    ∃ b : Word,
      let bt := p.fClk / (p.prescale * s.baud.toNat)
      let t := { s with
        cmd := encode (.init f), initDone := true, result := .ok, pinPrev := s.env.statIn
        bitTime := b, breakTime := BitVec.ofNat 32 (p.breakBits * bt), guardTime := BitVec.ofNat 32 (p.guardBits * bt)
        env := { s.env with uartBaud := s.baud, edgeEnabled := true }
        acts := s.acts ++ [.uartConfig s.baud, .edgeEnable] }
      (bt < 2 ^ 32 → b.toNat = bt) ∧
      initWith p f s = .next t ∧
      (p = Config.params → exec (.init f) s = .next t)

/-- 42_transmit.md R84, R86: an accepted TRANSMIT whose parameters pass latches its frame, flushes, enables and blocks the
receive path, and sets BUSY. That the FLUSH also cancels waveforms still owed and the transmitter's trigger
(`linePending`, `txStarted` in `Env.frameStart`) is the model's choice (log 9). -/
def Obligations.TransmitStartsFrame : Prop :=
  ∀ (f : CmdFields) (s : State), s.busy = false → s.initDone = true → f.id.toNat < 0x3E → f.len ≤ 8 →
    (f.dp = true ↔ f.len ≠ 0) →
    exec (.transmit f) s = .next { s with
      cmd := encode (.transmit f), busy := true, phase := .txArm, idx := 0
      latch := {
        op := .tx, id := f.id, txdp := f.dp, len := BitVec.ofNat 4 f.len
        enhEff := f.enh && decide (f.id.toNat < 0x3C), inj := f.inj, pid := encodePid f.id
        chkTx := ~~~ accum (if f.enh = true ∧ f.id.toNat < 0x3C then encodePid f.id else 0)
          (s.data.toList.take f.len) ^^^ (if f.inj = true then 0x01#8 else 0x00#8) }
      env := s.env.frameStart
      acts := s.acts ++ [.flush, .rxEnable, .rxBlock true] }

/-- 42_transmit.md R85: the parameter errors of TRANSMIT and REQUEST, in their order; nothing but RESULT (and CMD, which
keeps the accepted word) changes. -/
def Obligations.ParameterErrors : Prop :=
  ∀ (f : CmdFields) (s : State), s.busy = false → s.initDone = true →
    (0x3E ≤ f.id.toNat →
      exec (.transmit f) s = .next { s with cmd := encode (.transmit f), result := .invalidRange } ∧
      exec (.request f) s = .next { s with cmd := encode (.request f), result := .invalidRange }) ∧
    (f.id.toNat < 0x3E → ¬ (f.dp = true ↔ f.len ≠ 0) →
      exec (.transmit f) s = .next { s with cmd := encode (.transmit f), result := .invalidParameter } ∧
        exec (.request f) s = .next { s with cmd := encode (.request f), result := .invalidParameter }) ∧
    (f.id.toNat < 0x3E → (f.dp = true ↔ f.len ≠ 0) → f.len ≤ 8 → checkParams f.id f.dp f.len = .ok) ∧
    (f.id.toNat < 0x3E → (f.dp = true ↔ f.len ≠ 0) → 8 < f.len →
      exec (.transmit f) s = .next { s with cmd := encode (.transmit f), result := .invalidParameter } ∧
      exec (.request f) s = .next { s with cmd := encode (.request f), result := .invalidParameter })

/-- 43_request.md R100, R101: an accepted REQUEST whose parameters pass starts the timer and then the header's frame, and
seeds the accumulator. The byte latched as chkTx is never sent; the model gives it R86's formula (log 16), so the
statement leaves it open. That the FLUSH also cancels waveforms still owed and the transmitter's trigger (`linePending`,
`txStarted` in `Env.frameStart`) is the model's choice (log 9). -/
def Obligations.RequestStartsFrame : Prop :=
  ∀ (f : CmdFields) (s : State), s.busy = false → s.initDone = true → f.id.toNat < 0x3E → f.len ≤ 8 →
    (f.dp = true ↔ f.len ≠ 0) →
    ∃ unused : Byte,
    exec (.request f) s = .next { s with
      cmd := encode (.request f), busy := true, phase := .txArm, idx := 0, rxCount := 0
      sum := if f.enh = true ∧ f.id.toNat < 0x3C then encodePid f.id else 0x00#8
      latch := {
        op := .rq, id := f.id, txdp := false, len := BitVec.ofNat 4 f.len
        enhEff := f.enh && decide (f.id.toNat < 0x3C), inj := false, pid := encodePid f.id, chkTx := unused }
      env := { s.env.frameStart with
        tmoRunning := true, tmoLeft := Config.params.timeoutTicks, tmoUf := false }
      acts := s.acts ++ [.tmoStart Config.params.timeoutTicks, .flush, .rxEnable, .rxBlock true] }

/-- 44_counters_sleep.md R114, R115: SLEEP starts the sleep frame unless the bus already sleeps and FORCE = 0; then it
records OK and does nothing else. That the FLUSH also cancels waveforms still owed and the transmitter's trigger
(`linePending`, `txStarted` in `Env.frameStart`) is the model's choice (log 9). -/
def Obligations.SleepStartsFrame : Prop :=
  ∀ (f : CmdFields) (s : State), s.busy = false → s.initDone = true →
    (s.sleeping = false ∨ f.force = true →
      exec (.sleep f) s = .next { s with
        cmd := encode (.sleep f), busy := true, phase := .txArm, idx := 0
        latch := {
          op := .sl, id := 0x3C, txdp := true, len := 8, enhEff := false, inj := false, pid := 0x3C, chkTx := 0x00 }
        env := s.env.frameStart
        acts := s.acts ++ [.flush, .rxEnable, .rxBlock true] }) ∧
    (s.sleeping = true → f.force = false →
      exec (.sleep f) s = .next { s with cmd := encode (.sleep f), result := .ok })

/-- 44_counters_sleep.md R117: RESET_COUNTERS, as the command and as the word written to CMD. -/
def Obligations.ResetCountersClears : Prop :=
  (∀ (f : CmdFields) (s : State), s.busy = false →
    exec (.resetCounters f) s =
      .next { s with
        cmd := encode (.resetCounters f), result := .ok
        cnt := {
          mChk := 0, mConf := 0, mGen := 0, mTmo := 0, s0Chk := 0, s0Conf := 0, s0Gen := 0
          s1Chk := 0, s1Conf := 0, s1Gen := 0 } }) ∧
  (∀ (v : Word) (s : State), v.toNat % 16 = 5 →
    hostWrite 0x00 4 v s =
      if s.busy = true then .next (refuse .writeWhileBusy s)
      else if wordReserved v = true then .next (refuse .rsvdBits s)
      else .next { s with cmd := v, result := .ok, cnt := ⟨0, 0, 0, 0, 0, 0, 0, 0, 0, 0⟩ })

/-- 30_encoding.md R48: the fields a command ignores do not change it; only CMD shows them. -/
def Obligations.IgnoredFields : Prop :=
  ∀ (f g : CmdFields) (s : State),
    AgreeButCmd (exec (.nop f) s) (exec (.nop g) s) ∧
    AgreeButCmd (exec (.init f) s) (exec (.init g) s) ∧
    AgreeButCmd (exec (.resetCounters f) s) (exec (.resetCounters g) s) ∧
    (f.force = g.force → AgreeButCmd (exec (.sleep f) s) (exec (.sleep g) s)) ∧
    (f.id = g.id → f.len = g.len → f.dp = g.dp → f.enh = g.enh →
      AgreeButCmd (exec (.request f) s) (exec (.request g) s)) ∧
    (f.id = g.id → f.len = g.len → f.dp = g.dp → f.enh = g.enh → f.inj = g.inj →
      AgreeButCmd (exec (.transmit f) s) (exec (.transmit g) s))

/-! ## The register aperture -/

/-- 20_memory.md R35: what a bad access leaves and records. Two points are the model's choice: that an access from below
LIN_BASE that reaches into the aperture is a bad access, which R34 and R35 do not say (log 13), and that BUSY = 1 does
not change the cause to R39's WRITE_WHILE_BUSY (log 29). -/
def Obligations.BadAccess : Prop :=
  ∀ (off : Int) (size : Nat) (v : Word) (s : State), off < 128 → 0 ≤ off ∨ 0 < off + size →
    ¬ (size = 4 ∧ off % 4 = 0) →
    hostWrite off size v s =
      .next { s with err := true, errCause := if s.err = true then s.errCause else .badAccess } ∧
    hostRead off size s =
      { s with hostData := 0, err := true, errCause := if s.err = true then s.errCause else .badAccess }

/-- 10_state.md R14, R15, R17 to R21, R26, 20_memory.md R34, R38: what each offset reads as, and that a read changes
nothing but the value it returns. An access that reaches no byte of the aperture is not the block's: the model lets
it change nothing (log 13). -/
def Obligations.RegisterReads : Prop :=
  ∀ s : State,
    (∀ (off : Int) (size : Nat) (v : Word), 128 ≤ off ∨ off < 0 ∧ off + size ≤ 0 →
      hostRead off size s = s ∧ hostWrite off size v s = .next s) ∧
    (∀ off : Int, 0 ≤ off → off < 128 → off % 4 = 0 → hostRead off 4 s = { s with hostData := readOffset s off }) ∧
    readOffset s 0x00 = s.cmd ∧ readOffset s 0x04 = statusWord s ∧
    (readOffset s 0x08).toNat = s.baud.toNat ∧ readOffset s 0x0C = s.bitTime ∧
    readOffset s 0x10 = s.breakTime ∧ readOffset s 0x14 = s.guardTime ∧
    (readOffset s 0x18).toNat = s.lastPid.toNat + 2 ^ 8 * s.lastChk.toNat + 2 ^ 16 * s.sum.toNat ∧
    (readOffset s 0x20).toNat = (dataByte s.data 0).toNat + 2 ^ 8 * (dataByte s.data 1).toNat +
      2 ^ 16 * (dataByte s.data 2).toNat + 2 ^ 24 * (dataByte s.data 3).toNat ∧
    (readOffset s 0x24).toNat = (dataByte s.data 4).toNat + 2 ^ 8 * (dataByte s.data 5).toNat +
      2 ^ 16 * (dataByte s.data 6).toNat + 2 ^ 24 * (dataByte s.data 7).toNat ∧
    readOffset s 0x40 = s.cnt.mChk ∧ readOffset s 0x44 = s.cnt.mConf ∧
    readOffset s 0x48 = s.cnt.mGen ∧ readOffset s 0x4C = s.cnt.mTmo ∧
    readOffset s 0x50 = s.cnt.s0Chk ∧ readOffset s 0x54 = s.cnt.s0Conf ∧ readOffset s 0x58 = s.cnt.s0Gen ∧
    readOffset s 0x60 = s.cnt.s1Chk ∧ readOffset s 0x64 = s.cnt.s1Conf ∧ readOffset s 0x68 = s.cnt.s1Gen ∧
    (readOffset s 0x70).toNat = s.pinPrev.toNat ∧
    (∀ off : Int, off ∉ [0x00, 0x04, 0x08, 0x0C, 0x10, 0x14, 0x18, 0x20, 0x24, 0x40, 0x44, 0x48, 0x4C, 0x50, 0x54, 0x58,
      0x60, 0x64, 0x68, 0x70] → readOffset s off = 0)

/-- 10_state.md R16 with 30_encoding.md R51, R52 and the codes of 10_state.md R22: STATUS as a number. -/
def Obligations.StatusFields : Prop :=
  (∀ s : State, (statusWord s).toNat =
    s.busy.toNat + 2 * s.initDone.toNat + 4 * s.sleeping.toNat + 2 ^ 4 * s.result.code.toNat + 2 ^ 8 * s.err.toNat +
      2 ^ 12 * s.errCause.code.toNat + 2 ^ 16 * s.rxCount.toNat + 2 ^ 24 * s.phase.code.toNat) ∧
  [ResultCode.ok, .invalidParameter, .invalidRange, .abort, .timeout, .io, .none].map (fun r => r.code.toNat) =
    [0, 1, 2, 3, 4, 5, 7] ∧
  [ErrCause.none, .rsvdOpcode, .rsvdBits, .writeWhileBusy, .notInit, .alreadyInit, .badBaud, .badAccess].map
    (fun c => c.code.toNat) = [0, 1, 2, 3, 4, 5, 6, 7] ∧
  [Phase.idle, .txArm, .txWake, .txHdr, .txData, .txChk, .txWaitc, .txRxoffWait, .txColl, .rqData, .rqChk, .rqClean,
    .rqCleanWait].map (fun p => p.code.toNat) = [0, 1, 2, 3, 4, 5, 6, 7, 8, 9, 10, 11, 12]

/-- 10_state.md R17, R20, 20_memory.md R36, R38: what a write of BAUD, DATA0 or DATA1 stores, that it reads back, and that
every other write but CMD's is ignored, BUSY or not. -/
def Obligations.StorageWrites : Prop :=
  ∀ (v : Word) (s : State),
    (s.busy = false →
      (∃ b : BitVec 24, b.toNat = v.toNat % 2 ^ 24 ∧ hostWrite 0x08 4 v s = .next { s with baud := b }) ∧
      (∃ d : Vector Byte 8, hostWrite 0x20 4 v s = .next { s with data := d } ∧ dataWord 0 d = v ∧
        dataWord 4 d = dataWord 4 s.data ∧
        ∀ k, k < 4 → (dataByte d k).toNat = v.toNat / 2 ^ (8 * k) % 2 ^ 8) ∧
      (∃ d : Vector Byte 8, hostWrite 0x24 4 v s = .next { s with data := d } ∧ dataWord 4 d = v ∧
        dataWord 0 d = dataWord 0 s.data ∧
        ∀ k, k < 4 → (dataByte d (4 + k)).toNat = v.toNat / 2 ^ (8 * k) % 2 ^ 8)) ∧
    (∀ off : Int, 0 ≤ off → off < 128 → off % 4 = 0 → off ∉ [0x00, 0x08, 0x20, 0x24] → hostWrite off 4 v s = .next s)

/-- 20_memory.md R39: while BUSY = 1 the four writable registers refuse writes, and reads go on; DATA0 and DATA1 show the
bytes as they stand. -/
def Obligations.BusyWrites : Prop :=
  ∀ (v : Word) (s : State), s.busy = true →
    (∀ off : Int, off = 0x00 ∨ off = 0x08 ∨ off = 0x20 ∨ off = 0x24 →
      hostWrite off 4 v s =
        .next { s with err := true, errCause := if s.err = true then s.errCause else .writeWhileBusy }) ∧
    (∀ off : Int, 0 ≤ off → off < 128 → off % 4 = 0 → hostRead off 4 s = { s with hostData := readOffset s off }) ∧
    (hostRead 0x20 4 s).hostData = dataWord 0 s.data ∧ (hostRead 0x24 4 s).hostData = dataWord 4 s.data

/-! ## The frame encoder -/

/-- 41_frame_encoder.md R70, R71: the parity bits and the identifier in the PID, and the rule's corner cases. -/
def Obligations.PidParity : Prop :=
  (∀ id : FrameId,
    (encodePid id).getLsbD 6 =
      (((id.getLsbD 0 ^^ id.getLsbD 1) ^^ id.getLsbD 2) ^^ id.getLsbD 4) ∧
    (encodePid id).getLsbD 7 =
      !(((id.getLsbD 1 ^^ id.getLsbD 3) ^^ id.getLsbD 4) ^^ id.getLsbD 5) ∧
    (encodePid id).toNat % 64 = id.toNat ∧ encodePid id ≠ 0x00#8) ∧
  (∀ a b : FrameId, encodePid a = encodePid b → a = b) ∧
  encodePid 0x00#6 = 0x80#8 ∧ encodePid 0x3F#6 = 0xBF#8 ∧ encodePid 0x10#6 = 0x50#8 ∧ encodePid 0x3C#6 = 0x3C#8

/-- 41_frame_encoder.md R74: one accumulation step as arithmetic, and the rule's corner cases. -/
def Obligations.AccStep : Prop :=
  (∀ s b : Byte, (acc s b).toNat =
    if s.toNat + b.toNat ≤ 0xFF then s.toNat + b.toNat else s.toNat + b.toNat - 0xFF) ∧
  acc 0xFF#8 0xFF#8 = 0xFF#8 ∧ acc 0x80#8 0x80#8 = 0x01#8 ∧ acc 0x00#8 0xFF#8 = 0xFF#8 ∧ acc 0xF4#8 0xE5#8 = 0xDA#8

/-- 41_frame_encoder.md R76: the accumulator is the seed plus the bytes modulo 255, 0 only if nothing but 0 was added. -/
def Obligations.AccumRange : Prop :=
  ∀ (seed : Byte) (d : List Byte),
    (accum seed d).toNat % 255 = (seed.toNat + (d.map BitVec.toNat).sum) % 255 ∧
    ((accum seed d).toNat = 0 ↔ seed.toNat = 0 ∧ ∀ b ∈ d, b.toNat = 0)

/-- 41_frame_encoder.md R80: the deferred fold of the plain sum decides every frame as the per-byte carry does. -/
def Obligations.DeferredFold : Prop :=
  ∀ (seed : Byte) (r : List Byte) (c : Byte),
    foldSum (seed.toNat + (r.map BitVec.toNat).sum + c.toNat) = (acc (accum seed r) c).toNat

/-- 41_frame_encoder.md R81: the round trip, and the one accumulator value for which a second byte is accepted. -/
def Obligations.ChecksumRoundTrip : Prop :=
  ∀ (seed : Byte) (d : List Byte),
    responseValid seed d (computeChecksum seed d) = true ∧
    ∀ c : Byte, responseValid seed d c = true ↔
      c = computeChecksum seed d ∨ accum seed d = 0xFF#8 ∧ c = 0xFF#8

/-- 41_frame_encoder.md R82: a checksum byte with its bit 0 flipped is never accepted. -/
def Obligations.InjectionDetected : Prop :=
  ∀ (seed : Byte) (d : List Byte),
    responseValid seed d (injectError true (computeChecksum seed d)) = false ∧
    acc (accum seed d) (injectError true (computeChecksum seed d)) =
      if (computeChecksum seed d).toNat % 2 = 0 then 0x01#8 else 0xFE#8

/-- 41_frame_encoder.md R83: for the diagnostic identifiers ENH makes no difference to what TRANSMIT or REQUEST leaves
behind, CMD apart, and no engine step reads CMD. -/
def Obligations.DiagnosticDowngrade : Prop :=
  (∀ (f : CmdFields) (s : State), f.id = 0x3C#6 ∨ f.id = 0x3D#6 →
    AgreeButCmd (exec (.transmit { f with enh := true }) s) (exec (.transmit { f with enh := false }) s) ∧
    AgreeButCmd (exec (.request { f with enh := true }) s) (exec (.request { f with enh := false }) s)) ∧
  (∀ (w : Word) (s : State), engineStep { s with cmd := w } = { engineStep s with cmd := w })

/-! ## The engine, phase by phase -/

/-- 42_transmit.md R87, R88, R89: TX_ARM, TX_WAKE and TX_HDR, where TXC falls by 10_state.md R30 duty 7; and how the line
takes what they order: the waveforms in their order, the bytes only when the break's trigger has started the transmitter.
That no byte is sent while any waveform is owed, the transmitter started or not, is the model's choice (log 9). -/
def Obligations.EngineHeader : Prop :=
  ∀ s : State,
    (∀ o : Byte, s.env.txStarted = false ∨ s.env.linePending ≠ [] → envStep (.slot o) s = s) ∧
    (∀ rest, s.env.linePending = .wake :: rest →
      envStep .lineDone s = { s with env := { s.env with linePending := rest }, bus := s.bus ++ [.wake] }) ∧
    (∀ rest, s.env.linePending = .brk :: rest →
      envStep .lineDone s =
        { s with env := { s.env with linePending := rest, txStarted := true }, bus := s.bus ++ [.brk] }) ∧
    (s.phase = .txArm → engineStep s =
      if s.env.txIdle = true ∧ s.env.rxBlocked = true then
        { s with phase := if s.sleeping = true then .txWake else .txHdr }
      else s) ∧
    (s.phase = .txWake → engineStep s = { s with
      sleeping := false, phase := .txHdr
      env := { s.env with linePending := s.env.linePending ++ [.wake] }
      acts := s.acts ++ [.wakeupPulse] }) ∧
    (s.phase = .txHdr → engineStep s = { s with
      lastPid := s.latch.pid, phase := if s.latch.txdp = true then .txData else .txWaitc
      env := { s.env with
        txBuf := s.env.txBuf ++ [0x55#8, s.latch.pid], txc := false, linePending := s.env.linePending ++ [.brk] }
      acts := s.acts ++ [.txWrite 0x55#8, .txWrite s.latch.pid, .armBreak] })

/-- 42_transmit.md R90, R91, R92, R93: TX_DATA, TX_CHK, TX_WAITC and TX_RXOFF_WAIT. -/
def Obligations.EngineSend : Prop :=
  ∀ s : State,
    (s.phase = .txData → engineStep s =
      if s.env.txbl = true then
        { s with
          idx := s.idx + 1, phase := if s.idx + 1 = s.latch.len then .txChk else .txData
          env := { s.env with
            txBuf := s.env.txBuf ++ [payloadByte s.latch.op s.data s.idx.toNat], txc := false }
          acts := s.acts ++ [.txWrite (payloadByte s.latch.op s.data s.idx.toNat)] }
      else s) ∧
    (s.phase = .txChk → engineStep s =
      if s.env.txbl = true then
        { s with
          lastChk := s.latch.chkTx, phase := .txWaitc
          env := { s.env with txBuf := s.env.txBuf ++ [s.latch.chkTx], txc := false }
          acts := s.acts ++ [.txWrite s.latch.chkTx] }
      else s) ∧
    (s.phase = .txWaitc → engineStep s =
      if s.env.txc = true then
        if s.latch.txdp = true then
          { s with
            phase := .txRxoffWait, env := { s.env with rxEnabled := false }, acts := s.acts ++ [.rxDisable] }
        else
          { s with
            phase := .txColl, env := { s.env with rxBlock := false }, acts := s.acts ++ [.rxBlock false] }
      else s) ∧
    (s.phase = .txRxoffWait → engineStep s = if s.env.rxDisabled = true then { s with phase := .txColl } else s)

/-- 42_transmit.md R94: TX_COLL for the three frame commands; and COLL stays until a FLUSH, which neither an engine step
nor the environment issues. -/
def Obligations.EngineCollision : Prop :=
  (∀ s : State, s.env.coll = true →
    (engineStep s).env.coll = true ∧ ∀ e : EnvEvent, (envStep e s).env.coll = true) ∧
  ∀ s : State, s.phase = .txColl →
    (s.latch.op = .tx → engineStep s =
      if s.env.coll = true then
        { s with cnt := { s.cnt with mConf := s.cnt.mConf + 1 }, result := .abort, busy := false, phase := .idle }
      else { s with result := .ok, busy := false, phase := .idle }) ∧
    (s.latch.op = .sl → engineStep s =
      if s.env.coll = true then
        { s with
          cnt := { s.cnt with mConf := s.cnt.mConf + 1 }, sleeping := true, result := .abort, busy := false
          phase := .idle }
      else { s with sleeping := true, result := .ok, busy := false, phase := .idle }) ∧
    (s.latch.op = .rq → engineStep s =
      if s.env.coll = true then
        { s with cnt := { s.cnt with mConf := s.cnt.mConf + 1 }, pend := .abort, phase := .rqClean }
      else { s with idx := 0, phase := if 0 < s.latch.len.toNat then .rqData else .rqChk })

/-- 43_request.md R103: the poll's fixed priority; a phase that polls has a step only when some flag is 1; and a waiting
byte is not consumed when another flag decides. -/
def Obligations.PollPriority : Prop :=
  (∀ s : State, s.phase = .rqData ∨ s.phase = .rqChk →
    (engineStep s ≠ s ↔ s.env.tmoUf = true ∨ s.env.ferr = true ∨ s.env.ovf = true ∨ s.env.rxDataV = true) ∧
    (s.env.tmoUf = true ∨ s.env.ferr = true ∨ s.env.ovf = true →
      (engineStep s).env = s.env ∧ (engineStep s).acts = s.acts)) ∧
  ∀ e : Env,
    (e.rxDataV = true ↔ e.rxFifo ≠ []) ∧
    (e.tmoUf = true → poll e = .tmo) ∧
    (e.tmoUf = false → e.ferr = true ∨ e.ovf = true → poll e = .err) ∧
    (∀ b rest, e.tmoUf = false → e.ferr = false → e.ovf = false → e.rxFifo = b :: rest → poll e = .byte b) ∧
    (e.tmoUf = false → e.ferr = false → e.ovf = false → e.rxFifo = [] → poll e = .none)

/-- 43_request.md R104, R105: RQ_DATA and RQ_CHK, for each outcome of the poll; R106, R107: RQ_CLEAN and RQ_CLEAN_WAIT,
whose end is `finish(pend)` (00_scope.md R8). -/
def Obligations.EngineReceive : Prop :=
  ∀ s : State,
    (s.phase = .rqData ∨ s.phase = .rqChk →
      (poll s.env = .none → engineStep s = s) ∧
      (poll s.env = .tmo → engineStep s =
        { s with cnt := { s.cnt with mTmo := s.cnt.mTmo + 1 }, pend := .timeout, phase := .rqClean }) ∧
      (poll s.env = .err → engineStep s =
        { s with cnt := { s.cnt with mGen := s.cnt.mGen + 1 }, pend := .io, phase := .rqClean })) ∧
    (s.phase = .rqData → ∀ b, poll s.env = .byte b → engineStep s =
      { s with
        env := { s.env with rxFifo := s.env.rxFifo.tail }, acts := s.acts ++ [.rxPop]
        data := setDataByte s.idx.toNat b s.data, sum := acc s.sum b, idx := s.idx + 1, rxCount := s.idx + 1
        phase := if s.idx + 1 = s.latch.len then .rqChk else .rqData }) ∧
    (s.phase = .rqChk → ∀ c, poll s.env = .byte c → engineStep s =
      if acc s.sum c = 0xFF#8 then
        { s with
          env := { s.env with rxFifo := s.env.rxFifo.tail }, acts := s.acts ++ [.rxPop]
          lastChk := c, sum := acc s.sum c, pend := .ok, phase := .rqClean }
      else
        { s with
          env := { s.env with rxFifo := s.env.rxFifo.tail }, acts := s.acts ++ [.rxPop]
          lastChk := c, sum := acc s.sum c, cnt := { s.cnt with mChk := s.cnt.mChk + 1 }, pend := .io
          phase := .rqClean }) ∧
    (s.phase = .rqClean → engineStep s = { s with
      phase := .rqCleanWait, env := { s.env with tmoRunning := false, rxEnabled := false }
      acts := s.acts ++ [.tmoStop, .rxDisable] }) ∧
    (s.phase = .rqCleanWait → engineStep s =
      if s.env.rxDisabled = true then { s with result := s.pend, busy := false, phase := .idle } else s)

/-- 70_reset_and_hazards.md R146: the waits, by phase. The engine's step changes the state exactly when its phase awaits
nothing or what it awaits has come; in IDLE it never does. -/
def Obligations.EngineHolds : Prop :=
  ∀ s : State,
    (engineStep s = s ↔
      s.phase = .idle ∨
      s.phase = .txArm ∧ ¬ (s.env.txIdle = true ∧ s.env.rxBlocked = true) ∨
      (s.phase = .txData ∨ s.phase = .txChk) ∧ s.env.txbl = false ∨
      s.phase = .txWaitc ∧ s.env.txc = false ∨
      (s.phase = .txRxoffWait ∨ s.phase = .rqCleanWait) ∧ s.env.rxDisabled = false ∨
      (s.phase = .rqData ∨ s.phase = .rqChk) ∧
        s.env.tmoUf = false ∧ s.env.ferr = false ∧ s.env.ovf = false ∧ s.env.rxFifo = []) ∧
    (engineEnabled s = true ↔ engineStep s ≠ s)

/-! ## Rules about every step -/

/-- 10_state.md R22, 42_transmit.md R95, 43_request.md R108: the phase moves only along the tables, by an engine step; by
the start of a frame; or by reset. -/
def Obligations.PhaseTable : Prop :=
  ∀ s t : State, step s = .next t →
    t.phase = s.phase ∨
    nextEvent s = .engine ∧ Phase.edge s.phase t.phase = true ∨
    (∃ i : Instr, (nextEvent s).commands i ∧ sendsFrame i = true) ∧ s.busy = false ∧ t.phase = .txArm ∨
    (nextEvent s).resets ∧ t.phase = .idle

/-- 60_exceptions.md R128: ERR and ERR_CAUSE stay as the first refusal left them until reset. -/
def Obligations.ErrSticky : Prop :=
  ∀ s t : State, step s = .next t → s.err = true →
    t.err = true ∧ t.errCause = s.errCause ∨
    (nextEvent s).resets ∧ t.err = false ∧ t.errCause = .none

/-- 40_bit_timing.md R63: only an INIT that succeeds writes the timing values; reset clears them. -/
def Obligations.TimingOnlyByInit : Prop :=
  ∀ s t : State, step s = .next t →
    t.bitTime = s.bitTime ∧ t.breakTime = s.breakTime ∧ t.guardTime = s.guardTime ∨
    (∃ f : CmdFields, (nextEvent s).commands (.init f)) ∧ s.initDone = false ∧ t.initDone = true ∨
    (nextEvent s).resets ∧ t.bitTime = 0 ∧ t.breakTime = 0 ∧ t.guardTime = 0

/-- 10_state.md R25, 44_counters_sleep.md R116: who changes BUSY, INIT_DONE, SLEEPING and ERR. -/
def Obligations.StatusWriters : Prop :=
  ∀ s t : State, step s = .next t →
    (s.busy = false → t.busy = true →
      (∃ i : Instr, (nextEvent s).commands i ∧ sendsFrame i = true) ∧ t.phase = .txArm) ∧
    (s.busy = true → t.busy = false →
      nextEvent s = .engine ∧ (s.phase = .txColl ∨ s.phase = .rqCleanWait) ∧ t.phase = .idle ∨ (nextEvent s).resets) ∧
    (s.initDone = false → t.initDone = true →
      (∃ f : CmdFields, (nextEvent s).commands (.init f)) ∧ s.busy = false ∧ s.baud ≠ 0) ∧
    (s.initDone = true → t.initDone = false → (nextEvent s).resets) ∧
    (s.sleeping = false → t.sleeping = true →
      nextEvent s = .engine ∧ s.phase = .txColl ∧ s.latch.op = .sl) ∧
    (s.sleeping = true → t.sleeping = false →
      nextEvent s = .engine ∧ s.phase = .txWake ∨ (nextEvent s).resets) ∧
    (s.err = false → t.err = true →
      (∃ (off : Int) (size : Nat), nextEvent s = .hostRead off size) ∨
      (∃ (off : Int) (size : Nat) (v : Word), nextEvent s = .hostWrite off size v)) ∧
    (s.err = true → t.err = false → (nextEvent s).resets)

/-- 44_counters_sleep.md R119: every change of a counter. A step adds 1 to one master counter (the engine's), or 1 to one
slave counter (the detector's), or clears all ten. -/
def Obligations.CounterWriters : Prop :=
  ∀ s t : State, step s = .next t →
    t.cnt = s.cnt ∨
    nextEvent s = .engine ∧ t.cnt.slave = s.cnt.slave ∧
      (s.phase = .txColl ∧ t.cnt.master = [s.cnt.mChk, s.cnt.mConf + 1, s.cnt.mGen, s.cnt.mTmo] ∨
       s.phase = .rqChk ∧ t.cnt.master = [s.cnt.mChk + 1, s.cnt.mConf, s.cnt.mGen, s.cnt.mTmo] ∨
       (s.phase = .rqData ∨ s.phase = .rqChk) ∧
         (t.cnt.master = [s.cnt.mChk, s.cnt.mConf, s.cnt.mGen + 1, s.cnt.mTmo] ∨
          t.cnt.master = [s.cnt.mChk, s.cnt.mConf, s.cnt.mGen, s.cnt.mTmo + 1])) ∨
    (∃ k : Fin 6, nextEvent s = .detector k ∧ t.cnt = s.cnt.incPin k) ∧ t.cnt.master = s.cnt.master ∨
    ((∃ f : CmdFields, (nextEvent s).commands (.resetCounters f)) ∨ (nextEvent s).resets) ∧
      t.cnt.master = [0, 0, 0, 0] ∧ t.cnt.slave = [0, 0, 0, 0, 0, 0]

/-- 10_state.md R23, 20_memory.md R44: while a frame is in progress its latched fields, CMD and BAUD stay, and DATA changes
only by a byte a REQUEST receives. -/
def Obligations.FrameOperandsFixed : Prop :=
  ∀ s t : State, step s = .next t → s.busy = true → t.busy = true →
    t.latch = s.latch ∧ t.cmd = s.cmd ∧ t.baud = s.baud ∧
    (t.data = s.data ∨
      nextEvent s = .engine ∧ s.phase = .rqData ∧
        ∃ b, poll s.env = .byte b ∧ t.data = setDataByte s.idx.toNat b s.data)

/-- 60_exceptions.md R126: no error stops the machine. Every step of every state answers a next state, as does every
command in every state. -/
def Obligations.NoStepStops : Prop :=
  (∀ s : State, ∃ t, step s = .next t) ∧ (∀ (i : Instr) (s : State), ∃ t, exec i s = .next t)

/-! ## Reset -/

/-- 70_reset_and_hazards.md R141, R142, R143: a hardware reset in any phase. The collaborators and the levels of STAT_IN
at release are whatever the reset left there; the model's own records go on (log 4). -/
def Obligations.HardReset : Prop :=
  ∀ (s : State) (after : Env) (rest : List Event), s.events = .reset after :: rest →
    ∃ t : State, step s = .next t ∧
      t.cmd = 0 ∧ statusWord t = 0x00000070#32 ∧ t.busy = false ∧ t.initDone = false ∧ t.sleeping = false ∧
      t.result = .none ∧ t.err = false ∧ t.errCause = .none ∧ t.rxCount = 0 ∧ t.baud = 0 ∧
      t.bitTime = 0 ∧ t.breakTime = 0 ∧ t.guardTime = 0 ∧ frameInfoWord t = 0 ∧
      (∀ k, dataByte t.data k = 0) ∧ t.cnt = Counters.zero ∧ t.phase = .idle ∧
      t.latch = ⟨.tx, 0, false, 0, false, false, 0, 0⟩ ∧ t.idx = 0 ∧ t.sum = 0 ∧ t.pend = .ok ∧
      t.pinPrev = after.statIn ∧ t.env = after ∧ t.acts = s.acts ∧ t.bus = s.bus ∧ t.events = rest

/-- 10_state.md R14, 70_reset_and_hazards.md R142: what the registers read after reset. STATIN, the levels of the inputs
at release, is the model's choice of levels here (log 3), so the statement only compares it with them. -/
def Obligations.ResetState : Prop :=
  readOffset State.reset 0x04 = 0x00000070#32 ∧
  (∀ off : Int, off ∉ [0x04, 0x70] → readOffset State.reset off = 0) ∧
  (readOffset State.reset 0x70).toNat = State.reset.env.statIn.toNat ∧
  State.reset.phase = .idle ∧ State.reset.latch = ⟨.tx, 0, false, 0, false, false, 0, 0⟩ ∧
  State.reset.idx = 0 ∧ State.reset.sum = 0 ∧ State.reset.pend.code = 0 ∧ State.reset.acts = []

/-! ## The peer-status detector -/

/-- 44_counters_sleep.md R120, R121: the detector's step for each input. -/
def Obligations.DetectorStep : Prop :=
  ∀ (k : Fin 6) (s : State),
    (¬ (s.initDone = true ∧ s.env.statIn.getLsbD k.val ≠ s.pinPrev.getLsbD k.val) → detectorStep k s = s) ∧
    (s.initDone = true → s.env.statIn.getLsbD k.val ≠ s.pinPrev.getLsbD k.val →
      ∃ (pins : Pins) (c : Counters), detectorStep k s = { s with pinPrev := pins, cnt := c } ∧
        (∀ j : Fin 6, pins.getLsbD j.val =
          if j = k then s.env.statIn.getLsbD k.val else s.pinPrev.getLsbD j.val) ∧
        c.master = s.cnt.master ∧
        (k = 0 → c = { s.cnt with s0Chk := s.cnt.s0Chk + 1 }) ∧
        (k = 1 → c = { s.cnt with s1Chk := s.cnt.s1Chk + 1 }) ∧
        (k = 2 → c = { s.cnt with s0Conf := s.cnt.s0Conf + 1 }) ∧
        (k = 3 → c = { s.cnt with s1Conf := s.cnt.s1Conf + 1 }) ∧
        (k = 4 → c = { s.cnt with s0Gen := s.cnt.s0Gen + 1 }) ∧
        (k = 5 → c = { s.cnt with s1Gen := s.cnt.s1Gen + 1 }))

/-- 44_counters_sleep.md R121: the order in which pending toggles are counted does not matter, and the detector counts
whatever the engine is doing: the two agents' steps commute. -/
def Obligations.DetectorOrderFree : Prop :=
  (∀ (j k : Fin 6) (s : State), detectorStep j (detectorStep k s) = detectorStep k (detectorStep j s)) ∧
  (∀ (k : Fin 6) (s : State), detectorStep k (engineStep s) = engineStep (detectorStep k s))

/-- 44_counters_sleep.md R122, R117: a pending toggle and RESET_COUNTERS in both orders. Counted after the reset it
stands as 1; counted before it, it is lost. -/
def Obligations.ResetRace : Prop :=
  ∀ (k : Fin 6) (f : CmdFields) (s : State), s.busy = false → s.initDone = true →
    s.env.statIn.getLsbD k.val ≠ s.pinPrev.getLsbD k.val →
    (∃ t, exec (.resetCounters f) s = .next t ∧ (detectorStep k t).cnt.master = [0, 0, 0, 0] ∧
      (detectorStep k t).cnt = Counters.zero.incPin k ∧ (detectorStep k t).cnt ≠ Counters.zero) ∧
    (∃ t, exec (.resetCounters f) (detectorStep k s) = .next t ∧ t.cnt = Counters.zero ∧ detectorStep k t = t)

/-! ## The collaborators -/

/-- 10_state.md R30, the duties as the model's environment keeps them (log 5): 1 and 4 on the actions, 2 and 7 on every
step, 5 and 8 on the events they forbid. -/
def Obligations.EnvironmentDuties : Prop :=
  (∀ e : Env, (e.act .flush).rxDataV = false ∧ (e.act .flush).ferr = false ∧ (e.act .flush).ovf = false ∧
    (e.act .flush).coll = false ∧ (e.act .flush).txc = false) ∧
  (∀ (e : Env) (b : Byte) (rest : List Byte), e.rxFifo = b :: rest → (e.act .rxPop).rxFifo = rest) ∧
  (∀ s t : State, step s = .next t →
    (s.env.coll = false → t.env.coll = true →
      (∃ (o b : Byte) (rest : List Byte), nextEvent s = .env (.slot o) ∧ s.env.txBuf = b :: rest ∧ o ≠ b ∧
        t.bus = s.bus ++ [.byte b o]) ∨
      (nextEvent s).resets) ∧
    (s.env.coll = true → t.env.coll = false →
      (∃ i : Instr, (nextEvent s).commands i ∧ sendsFrame i = true) ∧ t.phase = .txArm ∨ (nextEvent s).resets) ∧
    (s.env.txc = false → t.env.txc = true → t.env.txBuf = [] ∨ (nextEvent s).resets)) ∧
  (∀ (b : Byte) (s : State), s.env.rxBlock = true → envStep (.rxByte b) s = s) ∧
  (∀ (k : Fin 6) (s : State), s.initDone = true → s.env.statIn.getLsbD k.val ≠ s.pinPrev.getLsbD k.val →
    envStep (.toggle k) s = s)

/-- 10_state.md R30 duty 3: after TMO_START(n) the flag is 0 until n ticks were counted, then 1; no other environment step
moves it while the timer runs; and once 1 it stays until a REQUEST starts the timer again, or reset. Duty 3 keeps the
flag only until TMO_STOP; that the TMO_STOP of RQ_CLEAN itself leaves the flag at 1, as the last clause says too, is the
model's choice (log 10). -/
def Obligations.TimerCounts : Prop :=
  (∀ (n m : Nat) (s : State), 1 ≤ n →
    (envAll (List.replicate m .tmoTick) (act (.tmoStart n) s)).env.tmoUf = decide (n ≤ m)) ∧
  (∀ (e : EnvEvent) (s : State), e ≠ .tmoTick → s.env.tmoRunning = true →
    (envStep e s).env.tmoUf = s.env.tmoUf ∧ (envStep e s).env.tmoLeft = s.env.tmoLeft ∧
      (envStep e s).env.tmoRunning = true) ∧
  (∀ s t : State, step s = .next t → s.env.tmoRunning = true → s.env.tmoUf = true →
    t.env.tmoUf = true ∨
    (∃ f : CmdFields, (nextEvent s).commands (.request f)) ∧ t.env.tmoLeft = Config.params.timeoutTicks ∨
    (nextEvent s).resets)

/-! ## The invariant -/

/-- The invariant holds right after reset. -/
def Obligations.InvHoldsAtReset : Prop := Inv State.reset

/-- The invariant of Safety.lean is kept by every step from every state that meets it: BUSY stands exactly with a frame in
progress (10_state.md R16), the timing values are INIT's (40_bit_timing.md R63), the latched command is a frame the
rules allow (42_transmit.md R86, 41_frame_encoder.md R72, R78), the engine's position agrees with it (42_transmit.md
R95, 43_request.md R108), and what was sent and is waiting is exactly what the engine has written of that frame
(30_encoding.md R53, 10_state.md R30). That COLL tells exactly of a mismatched slot is log 7, and that no break is owed
and no transmitter started before ARM_BREAK is log 9. -/
def Obligations.InvKeptByStep : Prop := ∀ s t : State, Inv s → step s = .next t → Inv t

/-- 30_encoding.md R53, 42_transmit.md R94, R97: when TX_COLL is reached, the whole frame has been sent in its order, and
the verdict is a mismatch in one of its slots. That COLL, by which the engine judges, tells exactly of a mismatch is
log 7. -/
def Obligations.FrameSentWhole : Prop :=
  ∀ s : State, Inv s → s.phase = .txColl →
    s.env.slots.map Prod.fst =
      [0x55#8, encodePid s.latch.id] ++
        (if s.latch.txdp = true then (payload s.latch.op s.data).take s.latch.len.toNat ++ [s.latch.chkTx] else []) ∧
    (engineStep s).cnt = (if mismatch s.env.slots = true then { s.cnt with mConf := s.cnt.mConf + 1 } else s.cnt) ∧
    (s.latch.op ≠ .rq →
      (engineStep s).busy = false ∧
        (engineStep s).result = (if mismatch s.env.slots = true then .abort else .ok) ∧
        ((engineStep s).sleeping = true ↔ s.latch.op = .sl)) ∧
    (s.latch.op = .rq →
      (engineStep s).busy = true ∧ (engineStep s).data = s.data ∧
        ((engineStep s).phase = .rqClean ↔ mismatch s.env.slots = true))

/-- 41_frame_encoder.md R79, 43_request.md R105, R111: in RQ_CHK the byte that arrives is judged against the seed of this
REQUEST and the bytes it stored; and a REQUEST ends with OK only if its accumulator is 0xFF. -/
def Obligations.RequestVerdict : Prop :=
  (∀ (s : State) (c : Byte), Inv s → s.phase = .rqChk → poll s.env = .byte c →
    (engineStep s).pend =
      (if responseValid (checksumSeed s.latch.enhEff s.latch.pid) (s.data.toList.take s.latch.len.toNat) c = true
       then .ok else .io) ∧
    (engineStep s).cnt =
      (if responseValid (checksumSeed s.latch.enhEff s.latch.pid) (s.data.toList.take s.latch.len.toNat) c = true
       then s.cnt else { s.cnt with mChk := s.cnt.mChk + 1 })) ∧
  (∀ s : State, Inv s → s.phase = .rqCleanWait → s.env.rxDisabled = true →
    (engineStep s).busy = false ∧
    ((engineStep s).result = .ok ∧ s.sum = 0xFF#8 ∨ (engineStep s).result = .abort ∨
      (engineStep s).result = .timeout ∨ (engineStep s).result = .io))

/-- 60_exceptions.md R131, 43_request.md R109: what every frame's end leaves in the receiver and the timer. -/
def Obligations.ExitTable : Prop :=
  ∀ s : State, Inv s → s.busy = true → (engineStep s).busy = false →
    (engineStep s).phase = .idle ∧ (engineStep s).data = s.data ∧ (engineStep s).rxCount = s.rxCount ∧
    (s.latch.op = .rq →
      s.phase = .rqCleanWait ∧ s.env.rxDisabled = true ∧ (engineStep s).env.tmoRunning = false ∧
        (engineStep s).env.rxEnabled = false ∧ (engineStep s).cnt = s.cnt) ∧
    (s.latch.op ≠ .rq →
      s.phase = .txColl ∧ (engineStep s).env.tmoRunning = s.env.tmoRunning ∧
        ((engineStep s).result = .abort ↔ s.env.coll = true) ∧
        (s.latch.txdp = true → (engineStep s).env.rxEnabled = false) ∧
        (s.latch.txdp = false → (engineStep s).env.rxEnabled = true ∧ (engineStep s).env.rxBlock = false))

/-! ## The line -/

/-- 40_bit_timing.md R62, R64, R65, R66, R67, R69, 70_reset_and_hazards.md R156: the idle level and the waveforms of a
character, of the header and the response with the gaps the UART may leave, of the break and of the wakeup pulse. Gaps in
whole bit-times, and waveforms as functions that no step reads, are the model's choice (log 25). -/
def Obligations.Waveforms : Prop :=
  idleLevel = true ∧
  (∀ b : Byte, (charBits b).length = 10 ∧ (charBits b)[0]? = some false ∧ (charBits b)[9]? = some true ∧
    (∀ i, i < 8 → (charBits b)[i + 1]? = some (b.getLsbD i)) ∧
    ((charBits b).takeWhile (fun level => !level)).length ≤ 9) ∧
  (∀ (b d gap t : Nat) (pid : Byte),
    (headerBits b d gap pid)[t]? =
      if t < b then some false
      else if t < b + d then some true
      else if t < b + d + 10 then [false, true, false, true, false, true, false, true, false, true][t - (b + d)]?
      else if t < b + d + 10 + gap then some true
      else (charBits pid)[t - (b + d + 10 + gap)]?) ∧
  (∀ (b d gap : Nat) (pid : Byte), (headerBits b d gap pid).length = b + d + 20 + gap) ∧
  (∀ (bytes : List (Nat × Byte)) (chk : Nat × Byte),
    (responseBits bytes chk).length = 10 * (bytes.length + 1) + ((bytes ++ [chk]).map Prod.fst).sum) ∧
  (∀ (gap : Nat) (b : Byte) (rest : List (Nat × Byte)),
    spacedBits ((gap, b) :: rest) = List.replicate gap true ++ charBits b ++ spacedBits rest) ∧
  (∀ (p : Params) (bt : Nat),
    breakWave p bt = [(false, p.breakBits * bt % 2 ^ 32), (true, p.delimBits * bt % 2 ^ 32)] ∧
    wakeWave p = [(false, p.wakeupPulseTicks), (true, p.wakeupDelayTicks)]) ∧
  9 < Config.params.breakBits

/-! ## Whole frames under the reference environment of 10_state.md R31 -/

/-- A round of the reference environment, the model's function for 10_state.md R31 (log 28), is a run of the machine's own
steps over the events that describe it, taken from the model's event list (log 1). Both are the model's choice. -/
def Obligations.RoundIsSteps : Prop :=
  ∀ (ps : PeerScript) (s : State) (rest : List Event),
    Host.Core.run Sys2Proof.core (refEvents ps s).length { s with events := refEvents ps s ++ rest } =
      .next { refRound ps s with events := rest }

/-- 42_transmit.md R84, R94, R96, 70_reset_and_hazards.md R155 under the reference environment (logs 28, 30): a TRANSMIT
goes on the line as break, SYNC, PID and, with DP = 1, its data bytes and checksum byte, each observed as the wired-AND
bus shows it, after a wakeup pulse if the bus slept; it takes the steps R155 counts, one more with the pulse, and ends
with OK, or with ABORT and one conflict counted if some slot was observed differently. That the line carries this frame's waveforms
and bytes in this order and nothing left from before, from any state, is the model's choice (log 9). -/
def Obligations.TransmitRun : Prop :=
  ∀ (ps : PeerScript) (f : CmdFields) (s : State), s.busy = false → s.initDone = true → f.id.toNat < 0x3E →
    f.len ≤ 8 → (f.dp = true ↔ f.len ≠ 0) →
    ∃ t, exec (.transmit f) s = .next t ∧
      let sent := [0x55#8, encodePid f.id] ++
        (if f.dp = true then s.data.toList.take f.len ++ [t.latch.chkTx] else [])
      let seen := observedSlots ps 0 sent
      let n := (if f.dp = true then f.len + 6 else 4) + s.sleeping.toNat
      let u := refRun n ps t
      (∀ k, k < n → (refRun k ps t).busy = true) ∧
      u.busy = false ∧ u.phase = .idle ∧
      u.bus = s.bus ++ lineOf s.sleeping seen ∧
      u.result = (if mismatch seen = true then .abort else .ok) ∧
      u.cnt = (if mismatch seen = true then { s.cnt with mConf := s.cnt.mConf + 1 } else s.cnt) ∧
      u.sleeping = false ∧ u.lastPid = encodePid f.id ∧
      u.lastChk = (if f.dp = true then t.latch.chkTx else s.lastChk) ∧
      u.data = s.data ∧ u.rxCount = s.rxCount ∧
      u.env.rxEnabled = !f.dp ∧ (f.dp = false → u.env.rxBlock = false)

/-- 44_counters_sleep.md R114, R115, R116, 70_reset_and_hazards.md R155 under the reference environment (logs 28, 30): the
sleep frame on the line, byte by byte, and SLEEPING after it, whatever COLL says. That the line carries this frame's waveforms and
bytes in this order and nothing left from before, from any state, is the model's choice (log 9). -/
def Obligations.SleepRun : Prop :=
  ∀ (ps : PeerScript) (f : CmdFields) (s : State), s.busy = false → s.initDone = true →
    s.sleeping = false ∨ f.force = true →
    ∃ t, exec (.sleep f) s = .next t ∧
      let seen := observedSlots ps 0
        [0x55#8, 0x3C#8, 0x00#8, 0xFF#8, 0xFF#8, 0xFF#8, 0xFF#8, 0xFF#8, 0xFF#8, 0xFF#8, 0x00#8]
      let n := 14 + s.sleeping.toNat
      let u := refRun n ps t
      (∀ k, k < n → (refRun k ps t).busy = true) ∧
      u.busy = false ∧ u.phase = .idle ∧ u.sleeping = true ∧
      u.bus = s.bus ++ lineOf s.sleeping seen ∧
      u.result = (if mismatch seen = true then .abort else .ok) ∧
      u.cnt = (if mismatch seen = true then { s.cnt with mConf := s.cnt.mConf + 1 } else s.cnt) ∧
      u.lastPid = 0x3C#8 ∧ u.lastChk = 0x00#8 ∧ u.data = s.data

/-- 43_request.md R100, R104, R105, R109, R111, 70_reset_and_hazards.md R155 under the reference environment (logs 28,
30): a REQUEST whose header is seen as sent and whose slave answers LEN bytes and a checksum byte stores the bytes in order and ends,
in the steps R155 counts, with OK exactly if the response is valid for its seed, else with IO and one checksum error
counted; the receiver is off and the timer stopped. That the line carries this frame's waveforms and
bytes in this order and nothing left from before, from any state, is the model's choice (log 9). -/
def Obligations.RequestAnswered : Prop :=
  ∀ (ps : PeerScript) (f : CmdFields) (s : State) (r : List Byte) (c : Byte) (rest : List RxEvent),
    s.busy = false → s.initDone = true → f.id.toNat < 0x3E → f.len ≤ 8 → (f.dp = true ↔ f.len ≠ 0) →
    r.length = f.len → ps.rx = r.map RxEvent.byte ++ [.byte c] ++ rest →
    mismatch (observedSlots ps 0 [0x55#8, encodePid f.id]) = false →
    ∃ t, exec (.request f) s = .next t ∧
      let seed := if f.enh = true ∧ f.id.toNat < 0x3C then encodePid f.id else 0x00#8
      let n := f.len + 7 + s.sleeping.toNat
      let u := refRun n ps t
      (∀ k, k < n → (refRun k ps t).busy = true) ∧
      u.busy = false ∧ u.phase = .idle ∧
      u.bus = s.bus ++ lineOf s.sleeping (observedSlots ps 0 [0x55#8, encodePid f.id]) ∧
      u.result = (if responseValid seed r c = true then .ok else .io) ∧
      u.cnt = (if responseValid seed r c = true then s.cnt else { s.cnt with mChk := s.cnt.mChk + 1 }) ∧
      (∀ k, dataByte u.data k = if k < f.len then r.getD k 0 else dataByte s.data k) ∧
      u.rxCount.toNat = f.len ∧ u.sum = acc (accum seed r) c ∧
      u.lastPid = encodePid f.id ∧ u.lastChk = c ∧ u.sleeping = false ∧
      u.env.rxEnabled = false ∧ u.env.tmoRunning = false

/-- 43_request.md R102, R109, 70_reset_and_hazards.md R155 under the reference environment (logs 28, 30): a REQUEST whose
header collides ends with ABORT and one conflict counted, and reads nothing. -/
def Obligations.RequestHeaderCollides : Prop :=
  ∀ (ps : PeerScript) (f : CmdFields) (s : State), s.busy = false → s.initDone = true → f.id.toNat < 0x3E →
    f.len ≤ 8 → (f.dp = true ↔ f.len ≠ 0) →
    mismatch (observedSlots ps 0 [0x55#8, encodePid f.id]) = true →
    ∃ t, exec (.request f) s = .next t ∧
      let n := 6 + s.sleeping.toNat
      let u := refRun n ps t
      (∀ k, k < n → (refRun k ps t).busy = true) ∧
      u.busy = false ∧ u.phase = .idle ∧ u.result = .abort ∧
      u.cnt = { s.cnt with mConf := s.cnt.mConf + 1 } ∧
      u.data = s.data ∧ u.rxCount = 0 ∧ u.sum = t.sum ∧ u.lastChk = s.lastChk ∧ u.sleeping = false ∧
      u.env.rxEnabled = false ∧ u.env.tmoRunning = false

/-- 43_request.md R104, R105, R109, R110, R111 under the reference environment (logs 28, 30): a REQUEST whose response
breaks off. After j bytes (j at most LEN, so that the poll for the checksum byte is one of them) a frame error comes, or the timer
underflows, be it that the script says so or that it ends. The bytes received stand in DATA, the rest keeps its
contents, and exactly one master counter counts. -/
def Obligations.RequestBreaksOff : Prop :=
  ∀ (ps : PeerScript) (f : CmdFields) (s : State) (r : List Byte) (fails : Bool) (rest : List RxEvent),
    s.busy = false → s.initDone = true → f.id.toNat < 0x3E → f.len ≤ 8 → (f.dp = true ↔ f.len ≠ 0) →
    r.length ≤ f.len →
    (if fails = true then ps.rx = r.map RxEvent.byte ++ .frameError :: rest
     else ps.rx = r.map RxEvent.byte ++ .timeout :: rest ∨ ps.rx = r.map RxEvent.byte) →
    mismatch (observedSlots ps 0 [0x55#8, encodePid f.id]) = false →
    ∃ t, exec (.request f) s = .next t ∧
      let n := r.length + 7 + s.sleeping.toNat
      let u := refRun n ps t
      (∀ k, k < n → (refRun k ps t).busy = true) ∧
      u.busy = false ∧ u.phase = .idle ∧
      u.result = (if fails = true then .io else .timeout) ∧
      u.cnt = (if fails = true then { s.cnt with mGen := s.cnt.mGen + 1 }
        else { s.cnt with mTmo := s.cnt.mTmo + 1 }) ∧
      (∀ k, dataByte u.data k = if k < r.length then r.getD k 0 else dataByte s.data k) ∧
      u.rxCount.toNat = r.length ∧ u.sum = accum t.sum r ∧ u.lastChk = s.lastChk ∧ u.sleeping = false ∧
      u.env.rxEnabled = false ∧ u.env.tmoRunning = false
end

