-- ==== Sys2Proof/Laws/Data.lean ====
section
/-! SUPPORT. The DATA buffer: read after write, byte by byte and as words. -/

namespace Sys2Proof.Machine

theorem dataByte_setDataByte (d : Vector Byte 8) (j k : Nat) (b : Byte) :
    dataByte (setDataByte k b d) j = if k = j ∧ k < 8 then b else dataByte d j := by
  unfold dataByte setDataByte
  by_cases hj : j < 8
  · rw [Vector.getElem?_eq_getElem hj, Vector.getElem?_eq_getElem hj, Vector.getElem_setIfInBounds]
    by_cases hk : k = j <;> simp [hk, hj]
  · rw [Vector.getElem?_eq_none (by omega), Vector.getElem?_eq_none (by omega)]
    have : ¬ (k = j ∧ k < 8) := by omega
    simp [this]

/-- A byte of a word stored into the buffer. -/
theorem dataByte_setDataWord (d : Vector Byte 8) (base j : Nat) (v : Word) (hb : base + 4 ≤ 8) :
    dataByte (setDataWord base v d) j =
      if base ≤ j ∧ j < base + 4 then v.extractLsb' (8 * (j - base)) 8 else dataByte d j := by
  unfold setDataWord
  simp only [dataByte_setDataByte]
  by_cases h : base ≤ j ∧ j < base + 4
  · obtain ⟨i, rfl⟩ : ∃ i, j = base + i := ⟨j - base, by omega⟩
    have hi : i = 0 ∨ i = 1 ∨ i = 2 ∨ i = 3 := by omega
    rcases hi with rfl | rfl | rfl | rfl <;>
      simp [show base < 8 by omega, show base + 1 < 8 by omega, show base + 2 < 8 by omega,
        show base + 3 < 8 by omega]
  · have h0 : ¬ base = j := by omega
    have h1 : ¬ base + 1 = j := by omega
    have h2 : ¬ base + 2 = j := by omega
    have h3 : ¬ base + 3 = j := by omega
    simp [h, h0, h1, h2, h3]

/-- The four bytes of a word, put together again, are the word. -/
theorem wordOfBytes_extract (v : Word) :
    wordOfBytes (v.extractLsb' 0 8) (v.extractLsb' 8 8) (v.extractLsb' 16 8) (v.extractLsb' 24 8) = v := by
  apply BitVec.eq_of_getLsbD_eq
  intro i hi
  simp only [wordOfBytes, BitVec.getLsbD_append, BitVec.getLsbD_extractLsb']
  split_ifs with h1 h2 h3
  · rw [decide_eq_true h1, Bool.true_and, Nat.zero_add]
  · rw [decide_eq_true h2, Bool.true_and, show 8 + (i - 8) = i by omega]
  · rw [decide_eq_true h3, Bool.true_and, show 16 + (i - 8 - 8) = i by omega]
  · rw [decide_eq_true (show i - 8 - 8 - 8 < 8 by omega), Bool.true_and, show 24 + (i - 8 - 8 - 8) = i by omega]

/-- A data word reads back after it is stored. -/
theorem dataWord_setDataWord (d : Vector Byte 8) (base : Nat) (v : Word) (hb : base + 4 ≤ 8) :
    dataWord base (setDataWord base v d) = v := by
  unfold dataWord
  simp only [dataByte_setDataWord d base _ v hb]
  have h0 : base ≤ base ∧ base < base + 4 := by omega
  have h1 : base ≤ base + 1 ∧ base + 1 < base + 4 := by omega
  have h2 : base ≤ base + 2 ∧ base + 2 < base + 4 := by omega
  have h3 : base ≤ base + 3 ∧ base + 3 < base + 4 := by omega
  simp only [h0, h1, h2, h3, and_self, if_true, Nat.sub_self, Nat.add_sub_cancel_left]
  exact wordOfBytes_extract v

/-- A data word is untouched by a store into the other half. -/
theorem dataWord_setDataWord_other (d : Vector Byte 8) (b c : Nat) (v : Word)
    (hc : c + 4 ≤ 8) (hd : b + 4 ≤ c ∨ c + 4 ≤ b) :
    dataWord b (setDataWord c v d) = dataWord b d := by
  unfold dataWord
  simp only [dataByte_setDataWord d c _ v hc]
  have h0 : ¬ (c ≤ b ∧ b < c + 4) := by omega
  have h1 : ¬ (c ≤ b + 1 ∧ b + 1 < c + 4) := by omega
  have h2 : ¬ (c ≤ b + 2 ∧ b + 2 < c + 4) := by omega
  have h3 : ¬ (c ≤ b + 3 ∧ b + 3 < c + 4) := by omega
  rw [if_neg h0, if_neg h1, if_neg h2, if_neg h3]

/-- Storing byte k lengthens a received prefix of k bytes by that byte. -/
theorem take_setDataByte (d : Vector Byte 8) (k : Nat) (b : Byte) (hk : k < 8) :
    (setDataByte k b d).toList.take (k + 1) = d.toList.take k ++ [b] := by
  unfold setDataByte
  rw [List.take_add_one]
  have hl : k < d.toList.length := by simpa using hk
  simp only [Vector.toList, Vector.toArray_setIfInBounds, Array.toList_setIfInBounds]
  rw [List.take_set_of_le (Nat.le_refl k)]
  congr 1
  rw [List.getElem?_set_self (by simpa [Vector.toList] using hl)]
  rfl

end Sys2Proof.Machine
end

