-- ==== Sys2Proof/Laws/Encoding.lean ====
section
/-! SUPPORT. The fields of an encoded command word, read back one by one. -/

namespace Sys2Proof

theorem flagBit_getLsbD (b : Bool) (i : Nat) : (flagBit b).getLsbD i = (decide (i = 0) && b) := by
  cases b
  · simp [flagBit]
  · by_cases h : i = 0
    · subst h; rfl
    · rw [BitVec.getLsbD_of_ge (flagBit true) i (by omega)]
      simp [h]

/-- Every bit of an encoded word, by its place in the format of 30_encoding.md R46. -/
theorem encodeFields_getLsbD (op : BitVec 4) (f : CmdFields) (i : Nat) :
    (encodeFields op f).getLsbD i =
      if i < 4 then op.getLsbD i
      else if i < 8 then false
      else if i < 14 then f.id.getLsbD (i - 8)
      else if i < 16 then false
      else if i < 20 then (BitVec.ofNat 4 f.len).getLsbD (i - 16)
      else (i == 20 && f.dp) || (i == 21 && f.enh) || (i == 22 && f.inj) || (i == 23 && f.force) := by
  by_cases hi : 32 ≤ i
  · rw [BitVec.getLsbD_of_ge _ _ hi]
    have hne : ∀ k, k < 32 → (i == k) = false := fun k hk => beq_false_of_ne (by omega)
    simp [hne, show ¬ i < 4 by omega, show ¬ i < 8 by omega, show ¬ i < 14 by omega, show ¬ i < 16 by omega,
      show ¬ i < 20 by omega]
  · have hi : i < 32 := by omega
    simp only [encodeFields, BitVec.getLsbD_append, flagBit_getLsbD]
    interval_cases i <;> simp

/-- A field of an encoded word, by its bits. -/
theorem extract_encodeFields {op : BitVec 4} {f : CmdFields} {start n : Nat} {field : BitVec n}
    (h : ∀ i, i < n → (encodeFields op f).getLsbD (start + i) = field.getLsbD i) :
    (encodeFields op f).extractLsb' start n = field := by
  apply BitVec.eq_of_getLsbD_eq
  intro i hi
  simp [hi, h i hi]

/-- The opcode of an encoded word. -/
theorem wordOp_encodeFields (op : BitVec 4) (f : CmdFields) : wordOp (encodeFields op f) = op := by
  apply extract_encodeFields
  intro i hi
  rw [encodeFields_getLsbD]
  interval_cases i <;> rfl

/-- The identifier of an encoded word. -/
theorem wordId_encodeFields (op : BitVec 4) (f : CmdFields) : (encodeFields op f).extractLsb' 8 6 = f.id := by
  apply extract_encodeFields
  intro i hi
  rw [encodeFields_getLsbD]
  interval_cases i <;> rfl

/-- The length of an encoded word. -/
theorem wordLen_encodeFields (op : BitVec 4) (f : CmdFields) :
    (encodeFields op f).extractLsb' 16 4 = BitVec.ofNat 4 f.len := by
  apply extract_encodeFields
  intro i hi
  rw [encodeFields_getLsbD]
  interval_cases i <;> rfl

theorem wordDp_encodeFields (op : BitVec 4) (f : CmdFields) : (encodeFields op f).getLsbD 20 = f.dp := by
  rw [encodeFields_getLsbD]; cases f.dp <;> rfl

theorem wordEnh_encodeFields (op : BitVec 4) (f : CmdFields) : (encodeFields op f).getLsbD 21 = f.enh := by
  rw [encodeFields_getLsbD]; cases f.enh <;> rfl

theorem wordInj_encodeFields (op : BitVec 4) (f : CmdFields) : (encodeFields op f).getLsbD 22 = f.inj := by
  rw [encodeFields_getLsbD]; cases f.inj <;> rfl

theorem wordForce_encodeFields (op : BitVec 4) (f : CmdFields) : (encodeFields op f).getLsbD 23 = f.force := by
  rw [encodeFields_getLsbD]; cases f.force <;> rfl

/-- An encoded word has no reserved bit set. -/
theorem wordReserved_encodeFields (op : BitVec 4) (f : CmdFields) : wordReserved (encodeFields op f) = false := by
  have h1 : (encodeFields op f).extractLsb' 4 4 = 0#4 := extract_encodeFields fun i hi => by
    rw [encodeFields_getLsbD]; interval_cases i <;> rfl
  have h2 : (encodeFields op f).extractLsb' 14 2 = 0#2 := extract_encodeFields fun i hi => by
    rw [encodeFields_getLsbD]; interval_cases i <;> rfl
  have h3 : (encodeFields op f).extractLsb' 24 8 = 0#8 := extract_encodeFields fun i hi => by
    rw [encodeFields_getLsbD]; interval_cases i <;> rfl
  rw [wordReserved, h1, h2, h3]
  rfl

/-- The fields of an encoded word are the fields it was made from, if LEN fits its bits. -/
theorem wordFields_encodeFields (op : BitVec 4) (f : CmdFields) (h : f.wellFormed = true) :
    wordFields (encodeFields op f) = f := by
  have hl : f.len < 16 := by simpa [CmdFields.wellFormed] using h
  simp only [wordFields, wordId_encodeFields, wordLen_encodeFields, wordDp_encodeFields, wordEnh_encodeFields,
    wordInj_encodeFields, wordForce_encodeFields, BitVec.toNat_ofNat, Nat.mod_eq_of_lt hl]

/-- A decoded command has fields that fit their bits. -/
theorem wordFields_wellFormed (v : Word) : (wordFields v).wellFormed = true := by
  have := (v.extractLsb' 16 4).isLt
  simpa [CmdFields.wellFormed, wordFields] using this

end Sys2Proof
end

