-- ==== Sys2Proof/Laws/State.lean ====
section
/-! SUPPORT. One lemma per field for each shared update of the state, so that no proof unfolds a record update. -/

namespace Sys2Proof.Machine

@[simp] theorem act_cmd (a : Action) (s : State) : (act a s).cmd = s.cmd := rfl
@[simp] theorem act_busy (a : Action) (s : State) : (act a s).busy = s.busy := rfl
@[simp] theorem act_initDone (a : Action) (s : State) : (act a s).initDone = s.initDone := rfl
@[simp] theorem act_sleeping (a : Action) (s : State) : (act a s).sleeping = s.sleeping := rfl
@[simp] theorem act_result (a : Action) (s : State) : (act a s).result = s.result := rfl
@[simp] theorem act_err (a : Action) (s : State) : (act a s).err = s.err := rfl
@[simp] theorem act_errCause (a : Action) (s : State) : (act a s).errCause = s.errCause := rfl
@[simp] theorem act_rxCount (a : Action) (s : State) : (act a s).rxCount = s.rxCount := rfl
@[simp] theorem act_baud (a : Action) (s : State) : (act a s).baud = s.baud := rfl
@[simp] theorem act_bitTime (a : Action) (s : State) : (act a s).bitTime = s.bitTime := rfl
@[simp] theorem act_breakTime (a : Action) (s : State) : (act a s).breakTime = s.breakTime := rfl
@[simp] theorem act_guardTime (a : Action) (s : State) : (act a s).guardTime = s.guardTime := rfl
@[simp] theorem act_lastPid (a : Action) (s : State) : (act a s).lastPid = s.lastPid := rfl
@[simp] theorem act_lastChk (a : Action) (s : State) : (act a s).lastChk = s.lastChk := rfl
@[simp] theorem act_data (a : Action) (s : State) : (act a s).data = s.data := rfl
@[simp] theorem act_cnt (a : Action) (s : State) : (act a s).cnt = s.cnt := rfl
@[simp] theorem act_phase (a : Action) (s : State) : (act a s).phase = s.phase := rfl
@[simp] theorem act_latch (a : Action) (s : State) : (act a s).latch = s.latch := rfl
@[simp] theorem act_idx (a : Action) (s : State) : (act a s).idx = s.idx := rfl
@[simp] theorem act_sum (a : Action) (s : State) : (act a s).sum = s.sum := rfl
@[simp] theorem act_pend (a : Action) (s : State) : (act a s).pend = s.pend := rfl
@[simp] theorem act_pinPrev (a : Action) (s : State) : (act a s).pinPrev = s.pinPrev := rfl
@[simp] theorem act_env (a : Action) (s : State) : (act a s).env = s.env.act a := rfl
@[simp] theorem act_events (a : Action) (s : State) : (act a s).events = s.events := rfl
@[simp] theorem act_draws (a : Action) (s : State) : (act a s).draws = s.draws := rfl
@[simp] theorem act_hostData (a : Action) (s : State) : (act a s).hostData = s.hostData := rfl
@[simp] theorem act_acts (a : Action) (s : State) : (act a s).acts = s.acts ++ [a] := rfl
@[simp] theorem act_bus (a : Action) (s : State) : (act a s).bus = s.bus := rfl

@[simp] theorem refuse_cmd (c : ErrCause) (s : State) : (refuse c s).cmd = s.cmd := rfl
@[simp] theorem refuse_busy (c : ErrCause) (s : State) : (refuse c s).busy = s.busy := rfl
@[simp] theorem refuse_initDone (c : ErrCause) (s : State) : (refuse c s).initDone = s.initDone := rfl
@[simp] theorem refuse_sleeping (c : ErrCause) (s : State) : (refuse c s).sleeping = s.sleeping := rfl
@[simp] theorem refuse_result (c : ErrCause) (s : State) : (refuse c s).result = s.result := rfl
@[simp] theorem refuse_err (c : ErrCause) (s : State) : (refuse c s).err = true := rfl
@[simp] theorem refuse_errCause (c : ErrCause) (s : State) : (refuse c s).errCause = if s.err then s.errCause else c := rfl
@[simp] theorem refuse_rxCount (c : ErrCause) (s : State) : (refuse c s).rxCount = s.rxCount := rfl
@[simp] theorem refuse_baud (c : ErrCause) (s : State) : (refuse c s).baud = s.baud := rfl
@[simp] theorem refuse_bitTime (c : ErrCause) (s : State) : (refuse c s).bitTime = s.bitTime := rfl
@[simp] theorem refuse_breakTime (c : ErrCause) (s : State) : (refuse c s).breakTime = s.breakTime := rfl
@[simp] theorem refuse_guardTime (c : ErrCause) (s : State) : (refuse c s).guardTime = s.guardTime := rfl
@[simp] theorem refuse_lastPid (c : ErrCause) (s : State) : (refuse c s).lastPid = s.lastPid := rfl
@[simp] theorem refuse_lastChk (c : ErrCause) (s : State) : (refuse c s).lastChk = s.lastChk := rfl
@[simp] theorem refuse_data (c : ErrCause) (s : State) : (refuse c s).data = s.data := rfl
@[simp] theorem refuse_cnt (c : ErrCause) (s : State) : (refuse c s).cnt = s.cnt := rfl
@[simp] theorem refuse_phase (c : ErrCause) (s : State) : (refuse c s).phase = s.phase := rfl
@[simp] theorem refuse_latch (c : ErrCause) (s : State) : (refuse c s).latch = s.latch := rfl
@[simp] theorem refuse_idx (c : ErrCause) (s : State) : (refuse c s).idx = s.idx := rfl
@[simp] theorem refuse_sum (c : ErrCause) (s : State) : (refuse c s).sum = s.sum := rfl
@[simp] theorem refuse_pend (c : ErrCause) (s : State) : (refuse c s).pend = s.pend := rfl
@[simp] theorem refuse_pinPrev (c : ErrCause) (s : State) : (refuse c s).pinPrev = s.pinPrev := rfl
@[simp] theorem refuse_env (c : ErrCause) (s : State) : (refuse c s).env = s.env := rfl
@[simp] theorem refuse_events (c : ErrCause) (s : State) : (refuse c s).events = s.events := rfl
@[simp] theorem refuse_draws (c : ErrCause) (s : State) : (refuse c s).draws = s.draws := rfl
@[simp] theorem refuse_hostData (c : ErrCause) (s : State) : (refuse c s).hostData = s.hostData := rfl
@[simp] theorem refuse_acts (c : ErrCause) (s : State) : (refuse c s).acts = s.acts := rfl
@[simp] theorem refuse_bus (c : ErrCause) (s : State) : (refuse c s).bus = s.bus := rfl

@[simp] theorem finish_cmd (r : ResultCode) (s : State) : (finish r s).cmd = s.cmd := rfl
@[simp] theorem finish_busy (r : ResultCode) (s : State) : (finish r s).busy = false := rfl
@[simp] theorem finish_initDone (r : ResultCode) (s : State) : (finish r s).initDone = s.initDone := rfl
@[simp] theorem finish_sleeping (r : ResultCode) (s : State) : (finish r s).sleeping = s.sleeping := rfl
@[simp] theorem finish_result (r : ResultCode) (s : State) : (finish r s).result = r := rfl
@[simp] theorem finish_err (r : ResultCode) (s : State) : (finish r s).err = s.err := rfl
@[simp] theorem finish_errCause (r : ResultCode) (s : State) : (finish r s).errCause = s.errCause := rfl
@[simp] theorem finish_rxCount (r : ResultCode) (s : State) : (finish r s).rxCount = s.rxCount := rfl
@[simp] theorem finish_baud (r : ResultCode) (s : State) : (finish r s).baud = s.baud := rfl
@[simp] theorem finish_bitTime (r : ResultCode) (s : State) : (finish r s).bitTime = s.bitTime := rfl
@[simp] theorem finish_breakTime (r : ResultCode) (s : State) : (finish r s).breakTime = s.breakTime := rfl
@[simp] theorem finish_guardTime (r : ResultCode) (s : State) : (finish r s).guardTime = s.guardTime := rfl
@[simp] theorem finish_lastPid (r : ResultCode) (s : State) : (finish r s).lastPid = s.lastPid := rfl
@[simp] theorem finish_lastChk (r : ResultCode) (s : State) : (finish r s).lastChk = s.lastChk := rfl
@[simp] theorem finish_data (r : ResultCode) (s : State) : (finish r s).data = s.data := rfl
@[simp] theorem finish_cnt (r : ResultCode) (s : State) : (finish r s).cnt = s.cnt := rfl
@[simp] theorem finish_phase (r : ResultCode) (s : State) : (finish r s).phase = .idle := rfl
@[simp] theorem finish_latch (r : ResultCode) (s : State) : (finish r s).latch = s.latch := rfl
@[simp] theorem finish_idx (r : ResultCode) (s : State) : (finish r s).idx = s.idx := rfl
@[simp] theorem finish_sum (r : ResultCode) (s : State) : (finish r s).sum = s.sum := rfl
@[simp] theorem finish_pend (r : ResultCode) (s : State) : (finish r s).pend = s.pend := rfl
@[simp] theorem finish_pinPrev (r : ResultCode) (s : State) : (finish r s).pinPrev = s.pinPrev := rfl
@[simp] theorem finish_env (r : ResultCode) (s : State) : (finish r s).env = s.env := rfl
@[simp] theorem finish_events (r : ResultCode) (s : State) : (finish r s).events = s.events := rfl
@[simp] theorem finish_draws (r : ResultCode) (s : State) : (finish r s).draws = s.draws := rfl
@[simp] theorem finish_hostData (r : ResultCode) (s : State) : (finish r s).hostData = s.hostData := rfl
@[simp] theorem finish_acts (r : ResultCode) (s : State) : (finish r s).acts = s.acts := rfl
@[simp] theorem finish_bus (r : ResultCode) (s : State) : (finish r s).bus = s.bus := rfl

@[simp] theorem setResult_cmd (r : ResultCode) (s : State) : (setResult r s).cmd = s.cmd := rfl
@[simp] theorem setResult_busy (r : ResultCode) (s : State) : (setResult r s).busy = s.busy := rfl
@[simp] theorem setResult_initDone (r : ResultCode) (s : State) : (setResult r s).initDone = s.initDone := rfl
@[simp] theorem setResult_sleeping (r : ResultCode) (s : State) : (setResult r s).sleeping = s.sleeping := rfl
@[simp] theorem setResult_result (r : ResultCode) (s : State) : (setResult r s).result = r := rfl
@[simp] theorem setResult_err (r : ResultCode) (s : State) : (setResult r s).err = s.err := rfl
@[simp] theorem setResult_errCause (r : ResultCode) (s : State) : (setResult r s).errCause = s.errCause := rfl
@[simp] theorem setResult_rxCount (r : ResultCode) (s : State) : (setResult r s).rxCount = s.rxCount := rfl
@[simp] theorem setResult_baud (r : ResultCode) (s : State) : (setResult r s).baud = s.baud := rfl
@[simp] theorem setResult_bitTime (r : ResultCode) (s : State) : (setResult r s).bitTime = s.bitTime := rfl
@[simp] theorem setResult_breakTime (r : ResultCode) (s : State) : (setResult r s).breakTime = s.breakTime := rfl
@[simp] theorem setResult_guardTime (r : ResultCode) (s : State) : (setResult r s).guardTime = s.guardTime := rfl
@[simp] theorem setResult_lastPid (r : ResultCode) (s : State) : (setResult r s).lastPid = s.lastPid := rfl
@[simp] theorem setResult_lastChk (r : ResultCode) (s : State) : (setResult r s).lastChk = s.lastChk := rfl
@[simp] theorem setResult_data (r : ResultCode) (s : State) : (setResult r s).data = s.data := rfl
@[simp] theorem setResult_cnt (r : ResultCode) (s : State) : (setResult r s).cnt = s.cnt := rfl
@[simp] theorem setResult_phase (r : ResultCode) (s : State) : (setResult r s).phase = s.phase := rfl
@[simp] theorem setResult_latch (r : ResultCode) (s : State) : (setResult r s).latch = s.latch := rfl
@[simp] theorem setResult_idx (r : ResultCode) (s : State) : (setResult r s).idx = s.idx := rfl
@[simp] theorem setResult_sum (r : ResultCode) (s : State) : (setResult r s).sum = s.sum := rfl
@[simp] theorem setResult_pend (r : ResultCode) (s : State) : (setResult r s).pend = s.pend := rfl
@[simp] theorem setResult_pinPrev (r : ResultCode) (s : State) : (setResult r s).pinPrev = s.pinPrev := rfl
@[simp] theorem setResult_env (r : ResultCode) (s : State) : (setResult r s).env = s.env := rfl
@[simp] theorem setResult_events (r : ResultCode) (s : State) : (setResult r s).events = s.events := rfl
@[simp] theorem setResult_draws (r : ResultCode) (s : State) : (setResult r s).draws = s.draws := rfl
@[simp] theorem setResult_hostData (r : ResultCode) (s : State) : (setResult r s).hostData = s.hostData := rfl
@[simp] theorem setResult_acts (r : ResultCode) (s : State) : (setResult r s).acts = s.acts := rfl
@[simp] theorem setResult_bus (r : ResultCode) (s : State) : (setResult r s).bus = s.bus := rfl

@[simp] theorem storeCmd_cmd (i : Instr) (s : State) : (storeCmd i s).cmd = encode i := rfl
@[simp] theorem storeCmd_busy (i : Instr) (s : State) : (storeCmd i s).busy = s.busy := rfl
@[simp] theorem storeCmd_initDone (i : Instr) (s : State) : (storeCmd i s).initDone = s.initDone := rfl
@[simp] theorem storeCmd_sleeping (i : Instr) (s : State) : (storeCmd i s).sleeping = s.sleeping := rfl
@[simp] theorem storeCmd_result (i : Instr) (s : State) : (storeCmd i s).result = s.result := rfl
@[simp] theorem storeCmd_err (i : Instr) (s : State) : (storeCmd i s).err = s.err := rfl
@[simp] theorem storeCmd_errCause (i : Instr) (s : State) : (storeCmd i s).errCause = s.errCause := rfl
@[simp] theorem storeCmd_rxCount (i : Instr) (s : State) : (storeCmd i s).rxCount = s.rxCount := rfl
@[simp] theorem storeCmd_baud (i : Instr) (s : State) : (storeCmd i s).baud = s.baud := rfl
@[simp] theorem storeCmd_bitTime (i : Instr) (s : State) : (storeCmd i s).bitTime = s.bitTime := rfl
@[simp] theorem storeCmd_breakTime (i : Instr) (s : State) : (storeCmd i s).breakTime = s.breakTime := rfl
@[simp] theorem storeCmd_guardTime (i : Instr) (s : State) : (storeCmd i s).guardTime = s.guardTime := rfl
@[simp] theorem storeCmd_lastPid (i : Instr) (s : State) : (storeCmd i s).lastPid = s.lastPid := rfl
@[simp] theorem storeCmd_lastChk (i : Instr) (s : State) : (storeCmd i s).lastChk = s.lastChk := rfl
@[simp] theorem storeCmd_data (i : Instr) (s : State) : (storeCmd i s).data = s.data := rfl
@[simp] theorem storeCmd_cnt (i : Instr) (s : State) : (storeCmd i s).cnt = s.cnt := rfl
@[simp] theorem storeCmd_phase (i : Instr) (s : State) : (storeCmd i s).phase = s.phase := rfl
@[simp] theorem storeCmd_latch (i : Instr) (s : State) : (storeCmd i s).latch = s.latch := rfl
@[simp] theorem storeCmd_idx (i : Instr) (s : State) : (storeCmd i s).idx = s.idx := rfl
@[simp] theorem storeCmd_sum (i : Instr) (s : State) : (storeCmd i s).sum = s.sum := rfl
@[simp] theorem storeCmd_pend (i : Instr) (s : State) : (storeCmd i s).pend = s.pend := rfl
@[simp] theorem storeCmd_pinPrev (i : Instr) (s : State) : (storeCmd i s).pinPrev = s.pinPrev := rfl
@[simp] theorem storeCmd_env (i : Instr) (s : State) : (storeCmd i s).env = s.env := rfl
@[simp] theorem storeCmd_events (i : Instr) (s : State) : (storeCmd i s).events = s.events := rfl
@[simp] theorem storeCmd_draws (i : Instr) (s : State) : (storeCmd i s).draws = s.draws := rfl
@[simp] theorem storeCmd_hostData (i : Instr) (s : State) : (storeCmd i s).hostData = s.hostData := rfl
@[simp] theorem storeCmd_acts (i : Instr) (s : State) : (storeCmd i s).acts = s.acts := rfl
@[simp] theorem storeCmd_bus (i : Instr) (s : State) : (storeCmd i s).bus = s.bus := rfl

/-- Actions in a row change the collaborators and the record of actions, nothing else. -/
theorem actAll_eq (as : List Action) (s : State) :
    actAll as s = { s with env := as.foldl (fun e a => e.act a) s.env, acts := s.acts ++ as } := by
  induction as generalizing s with
  | nil => simp [actAll]
  | cons a rest ih =>
    have h : actAll (a :: rest) s = actAll rest (act a s) := rfl
    rw [h, ih]
    simp [act]

end Sys2Proof.Machine
end

