-- ==== Sys2Proof/Laws/Ops.lean ====
section
/-! SUPPORT. What each shared operation can do, said once: the acceptance of a command, the environment's steps, the
detector, a host write. Later proofs cite these instead of unfolding the operations. -/

namespace Sys2Proof.Machine

/-- Everything an acceptance can answer (30_encoding.md R49). -/
theorem accept_cases {needsInit : Bool} {i : Instr} {run : State → State} {s t : State}
    (h : accept needsInit i run s = .next t) :
    (s.busy = true ∧ t = refuse .writeWhileBusy s) ∨
    (s.busy = false ∧ needsInit = true ∧ s.initDone = false ∧ t = refuse .notInit s) ∨
    (s.busy = false ∧ (needsInit = true → s.initDone = true) ∧ t = run (storeCmd i s)) := by
  unfold accept at h
  cases hb : s.busy <;> cases hn : needsInit <;> cases hi : s.initDone <;>
    simp_all

/-- Everything INIT can answer (40_bit_timing.md R60). -/
theorem initWith_cases {p : Params} {f : CmdFields} {s t : State} (h : initWith p f s = .next t) :
    (s.busy = true ∧ t = refuse .writeWhileBusy s) ∨
    (s.busy = false ∧ s.initDone = true ∧ t = refuse .alreadyInit s) ∨
    (s.busy = false ∧ s.initDone = false ∧ (s.baud = 0 ∨ bitTicks p s.baud.toNat = 0) ∧ t = refuse .badBaud s) ∨
    (s.busy = false ∧ s.initDone = false ∧ s.baud ≠ 0 ∧ bitTicks p s.baud.toNat ≠ 0 ∧
      t = runInit p (bitTicks p s.baud.toNat) (storeCmd (.init f) s)) := by
  unfold initWith at h
  split at h
  · left; simp_all
  · right
    split at h
    · left; simp_all
    · right
      split at h
      · left; simp_all
      · split at h
        · left; simp_all
        · right; simp_all

/-- An environment step changes the collaborators and the line's record, nothing else (10_state.md R12). -/
theorem envStep_frame (e : EnvEvent) (s : State) :
    ∃ (env : Env) (bus : List BusItem), envStep e s = { s with env := env, bus := bus } := by
  cases e with
  | lineDone =>
    simp only [envStep, envLineDone]
    split
    · exact ⟨s.env, s.bus, rfl⟩
    · exact ⟨_, _, rfl⟩
    · exact ⟨_, _, rfl⟩
  | slot o =>
    simp only [envStep, envSlot]
    split
    · exact ⟨_, _, rfl⟩
    · exact ⟨s.env, s.bus, rfl⟩
  | txComplete b =>
    simp only [envStep, envTxComplete]
    split
    · exact ⟨s.env, s.bus, rfl⟩
    · exact ⟨_, s.bus, rfl⟩
  | rxByte b =>
    simp only [envStep, envRxByte]
    split
    · exact ⟨s.env, s.bus, rfl⟩
    · exact ⟨_, s.bus, rfl⟩
  | tmoTick =>
    simp only [envStep, envTmoTick]
    split
    · split
      · exact ⟨s.env, s.bus, rfl⟩
      · exact ⟨_, s.bus, rfl⟩
    · exact ⟨s.env, s.bus, rfl⟩
  | tmoFlag b =>
    simp only [envStep, envTmoFlag]
    split
    · exact ⟨s.env, s.bus, rfl⟩
    · exact ⟨_, s.bus, rfl⟩
  | toggle k =>
    simp only [envStep, envToggle]
    split
    · exact ⟨s.env, s.bus, rfl⟩
    · exact ⟨_, s.bus, rfl⟩
  | txIdle b => exact ⟨_, s.bus, rfl⟩
  | rxBlocked b => exact ⟨_, s.bus, rfl⟩
  | txbl b => exact ⟨_, s.bus, rfl⟩
  | rxDisabled b => exact ⟨_, s.bus, rfl⟩
  | ferr b => exact ⟨_, s.bus, rfl⟩
  | ovf b => exact ⟨_, s.bus, rfl⟩
  | rxLose => exact ⟨_, s.bus, rfl⟩

/-- A detector step samples one input and counts it, or changes nothing (44_counters_sleep.md R121). -/
theorem detectorStep_frame (k : Fin 6) (s : State) :
    ∃ (pins : Pins) (c : Counters), detectorStep k s = { s with pinPrev := pins, cnt := c } := by
  unfold detectorStep
  split
  · exact ⟨_, _, rfl⟩
  · exact ⟨s.pinPrev, s.cnt, rfl⟩

/-- A host read changes the value returned and, on a bad access, the error record (20_memory.md R35, R38). -/
theorem hostRead_cases (off : Int) (size : Nat) (s : State) :
    hostRead off size s = s ∨ (∃ v, hostRead off size s = { s with hostData := v }) ∨
      hostRead off size s = refuse .badAccess { s with hostData := 0 } := by
  unfold hostRead
  split
  · exact .inl rfl
  · split
    · exact .inr (.inl ⟨_, rfl⟩)
    · exact .inr (.inr rfl)

/-- Only offset 0 is CMD (10_state.md R14). -/
theorem ofOffset_cmd {off : Int} (h : Reg.ofOffset off = some .cmd) : off = 0 := by
  have := List.find?_some h
  exact (eq_of_beq this).symm

/-- What an admitted or refused host write can do, the command case left to `exec` (20_memory.md R35, R38, R39). -/
theorem hostWrite_cases {off : Int} {size : Nat} {v : Word} {s t : State} (h : hostWrite off size v s = .next t) :
    t = s ∨ (∃ c, c ≠ .none ∧ t = refuse c s) ∨
      (off = 0 ∧ size = 4 ∧ ∃ i, decode v = .ok i ∧ exec i s = .next t) ∨
      (s.busy = false ∧ (∃ b, t = { s with baud := b })) ∨
      (s.busy = false ∧ (∃ d, t = { s with data := d })) := by
  unfold hostWrite at h
  split at h
  · simp_all
  split at h
  · rename_i hg
    have hg : size = 4 := by simp only [goodAccess, Bool.and_eq_true, beq_iff_eq] at hg; exact hg.1
    unfold writeOffset at h
    split at h
    · unfold writeCmd at h
      split at h
      · exact .inr (.inr (.inl ⟨ofOffset_cmd ‹_›, hg, _, by assumption, h⟩))
      · refine .inr (.inl ⟨_, ?_, (Host.Outcome.next.inj h).symm⟩)
        rename_i r _
        cases s.busy <;> cases r <;> decide
    all_goals
      first
      | (unfold writeStorage at h
         split at h
         · exact .inr (.inl ⟨.writeWhileBusy, by decide, (Host.Outcome.next.inj h).symm⟩)
         · rename_i hb
           have hb' : s.busy = false := by simpa using hb
           first
           | exact .inr (.inr (.inr (.inl ⟨hb', _, (Host.Outcome.next.inj h).symm⟩)))
           | exact .inr (.inr (.inr (.inr ⟨hb', _, (Host.Outcome.next.inj h).symm⟩))))
      | exact .inl (Host.Outcome.next.inj h).symm
  · exact .inr (.inl ⟨.badAccess, by decide, (Host.Outcome.next.inj h).symm⟩)

/-- The state after a frame's start, in one record (42_transmit.md R86). -/
theorem startFrame_eq (op : FrameOp) (id : FrameId) (txdp : Bool) (len : BitVec 4) (enh inj : Bool) (s : State) :
    startFrame op id txdp len enh inj s =
      { s with
        latch := latchFrame op id txdp len enh inj s.data, idx := 0, busy := true, phase := .txArm
        env := s.env.frameStart, acts := s.acts ++ [.flush, .rxEnable, .rxBlock true] } := by
  simp only [startFrame, actAll_eq, List.foldl, Env.act, Env.frameStart]

/-- The state after a REQUEST's start, in one record (43_request.md R100). -/
theorem startRequest_eq (n : Nat) (f : CmdFields) (s : State) :
    startRequest n f s =
      { s with
        latch := latchFrame .rq f.id false (BitVec.ofNat 4 f.len) f.enh false s.data, idx := 0, busy := true
        phase := .txArm, rxCount := 0, sum := checksumSeed (enhEffective f.enh f.id) (encodePid f.id)
        env := { s.env.frameStart with tmoRunning := true, tmoLeft := n, tmoUf := false }
        acts := s.acts ++ [.tmoStart n, .flush, .rxEnable, .rxBlock true] } := by
  simp only [startRequest, startFrame_eq, act, Env.act, Env.frameStart, latchFrame, List.append_assoc,
    List.cons_append, List.nil_append]

/-- When a frame's parameters pass (42_transmit.md R85). -/
theorem checkParams_ok {id : FrameId} {dp : Bool} {len : Nat} (h : checkParams id dp len = .ok) :
    id.toNat < 0x3E ∧ (dp = true ↔ len ≠ 0) ∧ len ≤ 8 := by
  unfold checkParams at h
  split at h
  · cases h
  · split at h
    · cases h
    · split at h
      · cases h
      · rename_i h1 h2 h3
        refine ⟨by omega, ?_, by omega⟩
        cases dp <;> simp_all

/-- Everything a command can do: it is refused; it completes in its own step with a result; INIT sets up; the counters
are cleared; or a frame starts (30_encoding.md R49, 20_memory.md R42). -/
theorem exec_cases {i : Instr} {s t : State} (h : exec i s = .next t) :
    (∃ c, c ≠ .none ∧ t = refuse c s) ∨
    (s.busy = false ∧ ∃ r, t = setResult r (storeCmd i s)) ∨
    (s.busy = false ∧ s.initDone = false ∧ s.baud ≠ 0 ∧ (∃ f, i = .init f) ∧
      bitTicks Config.params s.baud.toNat ≠ 0 ∧
      t = runInit Config.params (bitTicks Config.params s.baud.toNat) (storeCmd i s)) ∨
    (s.busy = false ∧ (∃ f, i = .resetCounters f) ∧ t = runResetCounters (storeCmd i s)) ∨
    (s.busy = false ∧ s.initDone = true ∧ ∃ f, i = .transmit f ∧ checkParams f.id f.dp f.len = .ok ∧
      t = startFrame .tx f.id f.dp (BitVec.ofNat 4 f.len) f.enh f.inj (storeCmd i s)) ∨
    (s.busy = false ∧ s.initDone = true ∧ ∃ f, i = .request f ∧ checkParams f.id f.dp f.len = .ok ∧
      t = startRequest Config.params.timeoutTicks f (storeCmd i s)) ∨
    (s.busy = false ∧ s.initDone = true ∧ (∃ f, i = .sleep f) ∧
      t = startFrame .sl Config.sleepId true 8#4 false false (storeCmd i s)) := by
  cases i with
  | nop f =>
    obtain ⟨_, rfl⟩ | ⟨_, h, _⟩ | ⟨hb, _, rfl⟩ := accept_cases h
    · exact .inl ⟨_, by decide, rfl⟩
    · cases h
    · exact .inr (.inl ⟨hb, _, rfl⟩)
  | init f =>
    obtain ⟨_, rfl⟩ | ⟨_, _, rfl⟩ | ⟨_, _, _, rfl⟩ | ⟨hb, hi, hd, ht, rfl⟩ := initWith_cases h
    · exact .inl ⟨_, by decide, rfl⟩
    · exact .inl ⟨_, by decide, rfl⟩
    · exact .inl ⟨_, by decide, rfl⟩
    · exact .inr (.inr (.inl ⟨hb, hi, hd, ⟨f, rfl⟩, ht, rfl⟩))
  | transmit f =>
    obtain ⟨_, rfl⟩ | ⟨_, _, _, rfl⟩ | ⟨hb, hi, rfl⟩ := accept_cases h
    · exact .inl ⟨_, by decide, rfl⟩
    · exact .inl ⟨_, by decide, rfl⟩
    · unfold runTransmit
      split
      · exact .inr (.inr (.inr (.inr (.inl ⟨hb, hi rfl, f, rfl, by assumption, rfl⟩))))
      · exact .inr (.inl ⟨hb, _, rfl⟩)
  | request f =>
    obtain ⟨_, rfl⟩ | ⟨_, _, _, rfl⟩ | ⟨hb, hi, rfl⟩ := accept_cases h
    · exact .inl ⟨_, by decide, rfl⟩
    · exact .inl ⟨_, by decide, rfl⟩
    · unfold runRequest
      split
      · exact .inr (.inr (.inr (.inr (.inr (.inl ⟨hb, hi rfl, f, rfl, by assumption, rfl⟩)))))
      · exact .inr (.inl ⟨hb, _, rfl⟩)
  | sleep f =>
    obtain ⟨_, rfl⟩ | ⟨_, _, _, rfl⟩ | ⟨hb, hi, rfl⟩ := accept_cases h
    · exact .inl ⟨_, by decide, rfl⟩
    · exact .inl ⟨_, by decide, rfl⟩
    · unfold runSleep
      split
      · exact .inr (.inl ⟨hb, _, rfl⟩)
      · exact .inr (.inr (.inr (.inr (.inr (.inr ⟨hb, hi rfl, ⟨f, rfl⟩, rfl⟩)))))
  | resetCounters f =>
    obtain ⟨_, rfl⟩ | ⟨_, h, _⟩ | ⟨hb, _, rfl⟩ := accept_cases h
    · exact .inl ⟨_, by decide, rfl⟩
    · cases h
    · exact .inr (.inr (.inr (.inl ⟨hb, ⟨f, rfl⟩, rfl⟩)))

end Sys2Proof.Machine
end

