-- ==== Sys2Proof/Laws/Invariant.lean ====
section
/-! SUPPORT. The invariant's parts depend on few fields, and steps of one shape change few of them: one lemma per shape. -/

namespace Sys2Proof.Machine

theorem accum_append (seed : Byte) (xs : List Byte) (b : Byte) : accum seed (xs ++ [b]) = acc (accum seed xs) b := by
  induction xs generalizing seed with
  | nil => rfl
  | cons a rest ih => exact ih (acc seed a)

theorem payload_length (op : FrameOp) (d : Vector Byte 8) : (payload op d).length = 8 := by
  cases op <;> simp [payload, Config.sleepPayload]

/-- A legal choice of parameters is left as it is, so every legal choice is a value of `Config.params` (log 12). -/
theorem Params.clamp_of_legal {p : Params} (h : p.Legal) : p.clamp = p := by
  obtain ⟨h1, h2, h3, h4, h5, h6, h7, h8, h9⟩ := h
  cases p
  simp only [Params.clamp, Params.mk.injEq] at *
  refine ⟨by omega, by omega, ?_, by omega, trivial, by omega, by omega, by omega, trivial, by omega, by omega⟩
  split <;> omega

theorem PhaseInv.congr {s t : State} (h : PhaseInv s) (hPhase : t.phase = s.phase) (hLatch : t.latch = s.latch)
    (hIdx : t.idx = s.idx) (hRx : t.rxCount = s.rxCount) (hSleep : t.sleeping = s.sleeping)
    (hPid : t.lastPid = s.lastPid) (hSum : t.sum = s.sum) (hData : t.data = s.data) (hPend : t.pend = s.pend) :
    PhaseInv t := by
  obtain ⟨a1, a2, a3, a4, a5, a6, a7, a8, a9, b1, b2, b3, b4, b5⟩ := h
  constructor <;> simp only [hPhase, hLatch, hIdx, hRx, hSleep, hPid, hSum, hData, hPend] <;> assumption

theorem EnvInv.congr {s t : State} (h : EnvInv s) (hPhase : t.phase = s.phase) (hLatch : t.latch = s.latch)
    (hIdx : t.idx = s.idx) (hData : t.data = s.data) (hEnv : t.env = s.env) : EnvInv t := by
  obtain ⟨a1, a2, a3, a4, a5, a6, a7, a8, a9, b1, b2⟩ := h
  have hw : writtenBytes t = writtenBytes s := by simp only [writtenBytes, hPhase, hLatch, hIdx, hData]
  constructor <;> simp only [hPhase, hLatch, hEnv, hw] <;> assumption

/-- A refusal keeps the invariant. -/
theorem Inv.refuse {s : State} (h : Inv s) {c : ErrCause} (hc : c ≠ .none) : Inv (refuse c s) := by
  obtain ⟨a1, a2, a3, a4, a5, a6, a7, a8, a9, b1, b2⟩ := h
  refine ⟨a1, a2, a3, ?_, a5, a6, a7, a8, a9, fun h => (b1 h).congr rfl rfl rfl rfl rfl rfl rfl rfl rfl,
    fun h => (b2 h).congr rfl rfl rfl rfl rfl⟩
  cases he : s.err <;> simp_all

/-- A step that leaves every field the invariant speaks of as it is keeps the invariant. -/
theorem Inv.congr {s t : State} (h : Inv s) (hBusy : t.busy = s.busy) (hPhase : t.phase = s.phase)
    (hInit : t.initDone = s.initDone) (hSleep : t.sleeping = s.sleeping) (hErr : t.err = s.err)
    (hCause : t.errCause = s.errCause) (hBit : t.bitTime = s.bitTime) (hBreak : t.breakTime = s.breakTime)
    (hGuard : t.guardTime = s.guardTime) (hRx : t.rxCount = s.rxCount) (hLatch : t.latch = s.latch)
    (hIdx : t.idx = s.idx) (hPid : t.lastPid = s.lastPid) (hSum : t.sum = s.sum) (hData : t.data = s.data)
    (hPend : t.pend = s.pend) (hEnv : t.env = s.env) : Inv t := by
  obtain ⟨a1, a2, a3, a4, a5, a6, a7, a8, a9, b1, b2⟩ := h
  refine ⟨?_, ?_, ?_, ?_, ?_, ?_, ?_, ?_, ?_,
    fun hb => (b1 (hBusy ▸ hb)).congr hPhase hLatch hIdx hRx hSleep hPid hSum hData hPend,
    fun hb => (b2 (hBusy ▸ hb)).congr hPhase hLatch hIdx hData hEnv⟩ <;>
    simp only [hBusy, hPhase, hInit, hSleep, hErr, hCause, hBit, hBreak, hGuard, hRx, hLatch, hData, hEnv] <;>
    assumption

/-- While no frame is in progress, a step that changes only what frames use keeps the invariant. -/
theorem Inv.idle {s t : State} (h : Inv s) (hb : s.busy = false) (hBusy : t.busy = s.busy)
    (hPhase : t.phase = s.phase) (hInit : t.initDone = s.initDone) (hSleep : t.sleeping = s.sleeping)
    (hErr : t.err = s.err) (hCause : t.errCause = s.errCause) (hBit : t.bitTime = s.bitTime)
    (hBreak : t.breakTime = s.breakTime) (hGuard : t.guardTime = s.guardTime)
    (hEdge : t.env.edgeEnabled = s.env.edgeEnabled) (hRx : t.rxCount = s.rxCount) : Inv t := by
  obtain ⟨a1, a2, a3, a4, a5, a6, a7, a8, a9, b1, b2⟩ := h
  have hb' : t.busy = false := by rw [hBusy, hb]
  refine ⟨by rw [hBusy, hPhase]; exact a1, ?_, by rw [hSleep, hInit]; exact a3, by rw [hErr, hCause]; exact a4,
    by rw [hRx]; exact a5, by rw [hInit, hBit, hBreak, hGuard]; exact a6,
    by rw [hInit, hBit, hBreak, hGuard]; exact a7, by rw [hInit, hEdge]; exact a8, ?_, ?_, ?_⟩ <;>
    simp [hb']

/-- An engine step that stays in the frame keeps the invariant if it keeps the frame's parts. -/
theorem Inv.withinFrame {s t : State} (h : Inv s) (hb : s.busy = true) (hb' : t.busy = true)
    (hPhase : t.phase ≠ .idle) (hInit : t.initDone = s.initDone) (hErr : t.err = s.err)
    (hCause : t.errCause = s.errCause) (hBit : t.bitTime = s.bitTime) (hBreak : t.breakTime = s.breakTime)
    (hGuard : t.guardTime = s.guardTime) (hEdge : t.env.edgeEnabled = s.env.edgeEnabled)
    (hRx : t.rxCount.toNat ≤ 8) (hL : LatchInv t.latch t.data) (hP : PhaseInv t) (hE : EnvInv t) : Inv t := by
  obtain ⟨a1, a2, a3, a4, a5, a6, a7, a8, a9, b1, b2⟩ := h
  have hi : t.initDone = true := by rw [hInit, a2 hb]
  refine ⟨by simp [hb', hPhase], fun _ => hi, fun _ => hi, by rw [hErr, hCause]; exact a4, hRx, ?_,
    by rw [hInit, hBit, hBreak, hGuard]; exact a7, by rw [hInit, hEdge]; exact a8, fun _ => hL, fun _ => hP,
    fun _ => hE⟩
  simp [hi]

/-- An engine step that ends the command keeps the invariant. -/
theorem Inv.endOfFrame {s t : State} (h : Inv s) (hb : s.busy = true) (hb' : t.busy = false)
    (hPhase : t.phase = .idle) (hInit : t.initDone = s.initDone) (hErr : t.err = s.err)
    (hCause : t.errCause = s.errCause) (hBit : t.bitTime = s.bitTime) (hBreak : t.breakTime = s.breakTime)
    (hGuard : t.guardTime = s.guardTime) (hEdge : t.env.edgeEnabled = s.env.edgeEnabled)
    (hRx : t.rxCount = s.rxCount) : Inv t := by
  obtain ⟨a1, a2, a3, a4, a5, a6, a7, a8, a9, b1, b2⟩ := h
  have hi : t.initDone = true := by rw [hInit, a2 hb]
  refine ⟨by simp [hb', hPhase], fun _ => hi, fun _ => hi, by rw [hErr, hCause]; exact a4, by rw [hRx]; exact a5, ?_,
    by rw [hInit, hBit, hBreak, hGuard]; exact a7, by rw [hInit, hEdge]; exact a8, ?_, ?_, ?_⟩
  · simp [hi]
  all_goals simp [hb']

end Sys2Proof.Machine
end

