-- ==== Sys2Proof/Laws/PerInstr.lean ====
section
/-! SUPPORT. Statements made for every command, one lemma per constructor (LAWS.json). -/

namespace Sys2Proof.Laws

/-- The row of the opcode table of a command's opcode: an encoded word passes the reserved-bit check and carries the
opcode of its command (30_encoding.md R46, R48). -/
def TableRow.Statement (i : Instr) : Prop := wordReserved (encode i) = false ∧ wordOp (encode i) = i.opcode

theorem TableRow.of_encode (i : Instr) : TableRow.Statement i :=
  ⟨wordReserved_encodeFields _ _, wordOp_encodeFields _ _⟩

theorem TableRow.nop (f : CmdFields) : TableRow.Statement (.nop f) := TableRow.of_encode _

theorem TableRow.init (f : CmdFields) : TableRow.Statement (.init f) := TableRow.of_encode _

theorem TableRow.transmit (f : CmdFields) : TableRow.Statement (.transmit f) := TableRow.of_encode _

theorem TableRow.request (f : CmdFields) : TableRow.Statement (.request f) := TableRow.of_encode _

theorem TableRow.sleep (f : CmdFields) : TableRow.Statement (.sleep f) := TableRow.of_encode _

theorem TableRow.resetCounters (f : CmdFields) : TableRow.Statement (.resetCounters f) := TableRow.of_encode _

end Sys2Proof.Laws
end

