-- ==== Sys2Proof/Laws/Step.lean ====
section
/-! SUPPORT. What one step of the machine can do, said once, and what an engine step never changes. -/

namespace Sys2Proof.Machine

/-- Taking the next event out changes only the model's own fields (log 1). -/
theorem popEvent_frame (s : State) :
    ∃ (es : List Event) (n : Nat), popEvent s = { s with events := es, draws := n } := by
  unfold popEvent
  split
  · exact ⟨_, s.draws, rfl⟩
  · exact ⟨s.events, _, rfl⟩

/-- Everything a step can do, by its event: a read; a refused access; nothing; a command; a storage write; an engine,
detector or environment step; a reset (00_scope.md R9). -/
theorem step_cases {s t : State} (h : step s = .next t) :
    ∃ u, u = popEvent s ∧
      ((∃ off size, nextEvent s = .hostRead off size ∧ ∃ v, t = { u with hostData := v }) ∨
       (((∃ off size, nextEvent s = .hostRead off size) ∨ ∃ off size v, nextEvent s = .hostWrite off size v) ∧
          ∃ c v, c ≠ .none ∧ t = refuse c { u with hostData := v }) ∨
       t = u ∨
       (∃ i, (nextEvent s).commands i ∧ exec i u = .next t) ∨
       (u.busy = false ∧ ∃ b d, t = { u with baud := b, data := d }) ∨
       (nextEvent s = .engine ∧ t = engineStep u) ∨
       (∃ k, nextEvent s = .detector k ∧ t = detectorStep k u) ∨
       (∃ e, nextEvent s = .env e ∧ t = envStep e u) ∨
       (∃ after, nextEvent s = .reset after ∧ t = hardReset after u)) := by
  refine ⟨_, rfl, ?_⟩
  unfold step at h
  generalize popEvent s = u at h ⊢
  generalize nextEvent s = ev at h ⊢
  cases ev with
  | hostRead off size =>
    obtain rfl := Host.Outcome.next.inj h
    obtain h | ⟨v, h⟩ | h := hostRead_cases off size u
    · exact .inr (.inr (.inl h))
    · exact .inl ⟨off, size, rfl, v, h⟩
    · exact .inr (.inl ⟨.inl ⟨off, size, rfl⟩, .badAccess, 0, by decide, h⟩)
  | hostWrite off size v =>
    obtain rfl | ⟨c, hc, rfl⟩ | ⟨rfl, rfl, i, hd, he⟩ | ⟨hb, b, rfl⟩ | ⟨hb, d, rfl⟩ := hostWrite_cases h
    · exact .inr (.inr (.inl rfl))
    · exact .inr (.inl ⟨.inr ⟨_, _, _, rfl⟩, c, u.hostData, hc, rfl⟩)
    · exact .inr (.inr (.inr (.inl ⟨i, ⟨v, rfl, hd⟩, he⟩)))
    · exact .inr (.inr (.inr (.inr (.inl ⟨hb, b, u.data, rfl⟩))))
    · exact .inr (.inr (.inr (.inr (.inl ⟨hb, u.baud, d, rfl⟩))))
  | engine => obtain rfl := Host.Outcome.next.inj h; simp
  | detector k => obtain rfl := Host.Outcome.next.inj h; simp
  | env e => obtain rfl := Host.Outcome.next.inj h; simp
  | reset after => obtain rfl := Host.Outcome.next.inj h; simp

/-- The fields no engine step changes (42_transmit.md R95, 43_request.md R108). -/
theorem engineStep_frame (s : State) :
    (engineStep s).cmd = s.cmd ∧ (engineStep s).initDone = s.initDone ∧ (engineStep s).err = s.err ∧
    (engineStep s).errCause = s.errCause ∧ (engineStep s).baud = s.baud ∧ (engineStep s).bitTime = s.bitTime ∧
    (engineStep s).breakTime = s.breakTime ∧ (engineStep s).guardTime = s.guardTime ∧
    (engineStep s).latch = s.latch ∧ (engineStep s).pinPrev = s.pinPrev ∧ (engineStep s).events = s.events ∧
    (engineStep s).draws = s.draws ∧ (engineStep s).hostData = s.hostData ∧ (engineStep s).bus = s.bus ∧
    (engineStep s).env.statIn = s.env.statIn := by
  unfold engineStep
  cases s.phase <;> simp only []
  case idle => simp
  case txArm => simp only [engTxArm]; split <;> simp
  case txWake => simp [engTxWake, Env.act]
  case txHdr => simp [engTxHdr, actAll_eq, Env.act]
  case txData => simp only [engTxData]; split <;> simp [Env.act]
  case txChk => simp only [engTxChk]; split <;> simp [Env.act]
  case txWaitc =>
    simp only [engTxWaitc]
    split
    · split <;> simp [Env.act]
    · simp
  case txRxoffWait => simp only [engTxRxoffWait]; split <;> simp
  case txColl => simp only [engTxColl, countCollision]; cases s.env.coll <;> cases s.latch.op <;> simp [finish]
  case rqData =>
    simp only [engRqData]
    cases poll s.env <;> simp [receiveTimeout, receiveError, receiveData, Env.act]
  case rqChk =>
    simp only [engRqChk, receiveChecksum]
    cases poll s.env <;> simp [receiveTimeout, receiveError]
    split <;> simp [Env.act]
  case rqClean => simp [engRqClean, actAll_eq, Env.act]
  case rqCleanWait => simp only [engRqCleanWait]; split <;> simp [finish]

end Sys2Proof.Machine
end

