-- ==== Sys2Proof/Tests/Slice0.lean ====
section
/-! SUPPORT. The model's own tests. Every expected value is taken from spec/95_test_vectors.md (row named in the docstring)
or worked out by hand from the rule named there. After them stand the witnesses: for every statement with hypotheses, a
concrete state and operands that meet them. -/

namespace Sys2Proof.Tests

open Sys2Proof Sys2Proof.Machine

/-- The parameters of the vectors (95_test_vectors.md, Conventions). -/
def vecParams : Params := ⟨1000000, 1, 13, 1, 0, 3, 1, 1, 0, 0, 2⟩

/-- The state a step answers. -/
def after (r : Result) : State :=
  match r with
  | .next s => s
  | .fault f => nomatch f
  | .refused _ => State.reset

/-- The boot state of the vectors but for its timing registers, which hold this implementation's values for BIT_TICKS = 52. -/
def boot : State :=
  { State.reset with
    cmd := 1, initDone := true, result := .ok, baud := 19200, bitTime := bitTimeReg 52
    breakTime := breakTicks Config.params 52, guardTime := guardTicks Config.params 52
    env := { Env.powerOn with uartBaud := 19200, edgeEnabled := true } }

/-- A state with the host's write of a word to CMD as its next event. -/
def writing (v : Word) (s : State) : State := { s with events := [.hostWrite 0x00 4 v] }

/-! ## Well-formedness and decoding -/

/-- LEN has four bits. -/
theorem test_wellFormed_refuses_len16 : (Instr.transmit ⟨0x10, 16, true, true, false, false⟩).wellFormed = false := by
  decide

theorem test_wellFormed_every_command_refuses_len16 :
    [Instr.nop, .init, .transmit, .request, .sleep, .resetCounters].all
      (fun c => !(c ⟨0x3F, 16, false, false, false, false⟩).wellFormed && (c ⟨0x3F, 15, true, true, true, true⟩).wellFormed)
      = true := by
  decide

/-- NOP: `00000000 F J E D LLLL 00 IIIIII 0000 OOOO`, vector P12. -/
theorem test_decode_nop :
    decode 0b00000000_1111_1111_00_111111_0000_0000#32 = .ok (.nop ⟨0x3F, 15, true, true, true, true⟩) := by
  rfl

theorem test_decode_init :
    decode 0b00000000_0000_0000_00_000000_0000_0001#32 = .ok (.init ⟨0, 0, false, false, false, false⟩) := by
  rfl

/-- 95_test_vectors.md §6: TRANSMIT id=0x10 len=2 dp=1 enh=1 inj=1. -/
theorem test_decode_transmit :
    decode 0b00000000_0111_0010_00_010000_0000_0010#32 = .ok (.transmit ⟨0x10, 2, true, true, true, false⟩) := by
  rfl

/-- 95_test_vectors.md §6: REQUEST id=0x21 len=2 dp=1 enh=1, with its decoding check. -/
theorem test_decode_request :
    decode 0b00000000_0011_0010_00_100001_0000_0011#32 = .ok (.request ⟨0x21, 2, true, true, false, false⟩) := by
  rfl

theorem test_decode_sleep :
    decode 0b00000000_1000_0000_00_000000_0000_0100#32 = .ok (.sleep ⟨0, 0, false, false, false, true⟩) := by
  rfl

theorem test_decode_resetCounters :
    decode 0b00000000_0000_0000_00_000000_0000_0101#32 = .ok (.resetCounters ⟨0, 0, false, false, false, false⟩) := by
  rfl

/-- Vectors A9, A10, A11, A12, A13, A14. -/
theorem test_decode_rejects :
    [0x00000006#32, 0x0000000F#32, 0x00000010#32, 0x00004002#32, 0x01321002#32, 0x00000016#32].map decode =
      [.error .rsvdOpcode, .error .rsvdOpcode, .error .rsvdBits, .error .rsvdBits, .error .rsvdBits,
        .error .rsvdBits] := by
  rfl

/-- 95_test_vectors.md §6. -/
theorem test_encode_words :
    [encode (.transmit ⟨0x01, 4, true, true, false, false⟩), encode (.request ⟨0x3C, 8, true, true, false, false⟩),
      encode (.sleep ⟨0, 0, false, false, false, true⟩)] = [0x00340102#32, 0x00383C03#32, 0x00800004#32] := by
  decide

/-- A table word through the bytes of its register slot. -/
theorem test_decodeTableWord :
    decodeTableWord 32 0x00321002 = some (.transmit ⟨0x10, 2, true, true, false, false⟩) ∧
    decodeTableWord 8 5 = some (.resetCounters ⟨0, 0, false, false, false, false⟩) ∧
    decodeTableWord 32 6 = none ∧ decodeTableWord 40 0x100000000 = none := by
  decide

/-- The very next step after placing a row's word runs that command: vectors A3, A5, A2, A2, A2, A4. -/
theorem test_withFetchWord :
    [0x0, 0x1, 0x00321002, 0x00322103, 0x4, 0x5].map
        (fun w => statusWord (after (step (State.reset.withFetchWord 32 w)))) =
      [0x00000000#32, 0x00006170#32, 0x00004170#32, 0x00004170#32, 0x00004170#32, 0x00000000#32] := by
  decide +kernel

/-! ## One step of each command -/

/-- Vector P12: NOP with every field that is not reserved set. -/
theorem test_nop_keeps_word :
    (after (step (writing 0x00FF3F00#32 boot))).cmd = 0x00FF3F00#32 ∧
      statusWord (after (step (writing 0x00FF3F00#32 boot))) = 0x00000002#32 := by
  decide +kernel

/-- Vector A16: NOP while a frame is in progress. -/
theorem test_nop_refused_while_busy :
    statusWord (after (exec (.nop ⟨0, 0, false, false, false, false⟩) { boot with busy := true, phase := .txHdr })) =
      0x03003103#32 := by
  decide +kernel

/-- Vector A7: INIT at 19200 baud. -/
theorem test_init_boot :
    let t := after (initWith vecParams ⟨0, 0, false, false, false, false⟩ { State.reset with baud := 0x4B00 })
    statusWord t = 0x00000002#32 ∧ t.bitTime = 52#32 ∧ t.breakTime = 676#32 ∧ t.guardTime = 0#32 ∧
      t.cmd = 0x00000001#32 := by
  decide +kernel

/-- 95_test_vectors.md §7: BIT_TICKS = 0 at 1 000 001 baud; and it truncates at 10417. -/
theorem test_init_badBaud_and_truncation :
    statusWord (after (initWith vecParams ⟨0, 0, false, false, false, false⟩ { State.reset with baud := 1000001 })) =
      0x00006170#32 ∧
    (after (initWith vecParams ⟨0, 0, false, false, false, false⟩ { State.reset with baud := 10417 })).bitTime =
      95#32 := by
  decide +kernel

/-- Vectors V1, V2: the frame that starts and its checksum bytes. -/
theorem test_transmit_starts :
    let s := { boot with data := setDataWord 0 0x00000201#32 boot.data }
    statusWord (after (step (writing 0x00321002#32 s))) = 0x01000003#32 ∧
      (after (step (writing 0x00321002#32 s))).latch.chkTx = 0xAC#8 ∧
      (after (step (writing 0x00721002#32 s))).latch.chkTx = 0xAD#8 := by
  decide +kernel

/-- Vectors P1, P2, P3, P5. -/
theorem test_transmit_parameters :
    [0x00113E02#32, 0x00103F02#32, 0x00101002#32, 0x00191002#32].map
        (fun w => statusWord (after (step (writing w boot)))) =
      [0x00000022#32, 0x00000022#32, 0x00000012#32, 0x00000012#32] := by
  decide +kernel

/-- Vector V12's start: the seed is the PID; the timer runs. -/
theorem test_request_starts :
    let t := after (requestWith 3 ⟨0x21, 2, true, true, false, false⟩ { boot with rxCount := 7 })
    statusWord t = 0x01000003#32 ∧ frameInfoWord t = 0x00610000#32 ∧ t.env.tmoLeft = 3 ∧ t.env.tmoRunning = true := by
  decide +kernel

/-- Vectors P7, P8, P9. -/
theorem test_request_parameters :
    [0x00323E03#32, 0x00101003#32, 0x00191003#32].map (fun w => statusWord (after (step (writing w boot)))) =
      [0x00000022#32, 0x00000012#32, 0x00000012#32] := by
  decide +kernel

/-- Vector P11: SLEEP ignores its other fields; vector V29's checksum byte 00 and PID 3C. -/
theorem test_sleep_starts :
    let t := after (step (writing 0x007F3F04#32 boot))
    statusWord t = 0x01000003#32 ∧ t.latch.pid = 0x3C#8 ∧ t.latch.chkTx = 0x00#8 ∧ t.latch.len = 8#4 := by
  decide +kernel

/-- Vectors V30, V31. -/
theorem test_sleep_skipped_unless_forced :
    statusWord (after (step (writing 0x00000004#32 { boot with sleeping := true }))) = 0x00000006#32 ∧
    statusWord (after (step (writing 0x00800004#32 { boot with sleeping := true }))) = 0x01000007#32 := by
  decide +kernel

/-- Vector A4, C5. -/
theorem test_resetCounters :
    let t := after (step (writing 0x00000005#32 { State.reset with cnt := ⟨1, 2, 3, 4, 5, 6, 7, 8, 9, 10⟩ }))
    statusWord t = 0x00000000#32 ∧ t.cnt.master = [0, 0, 0, 0] ∧ t.cnt.slave = [0, 0, 0, 0, 0, 0] := by
  decide +kernel

/-! ## The frame encoder, the engine and the detector -/

/-- 95_test_vectors.md §2: the whole table. -/
theorem test_pid_table :
    (List.range 64).map (fun n => encodePid (BitVec.ofNat 6 n)) =
      [0x80#8, 0xC1#8, 0x42#8, 0x03#8, 0xC4#8, 0x85#8, 0x06#8, 0x47#8, 0x08#8, 0x49#8, 0xCA#8, 0x8B#8, 0x4C#8, 0x0D#8,
        0x8E#8, 0xCF#8] ++
      [0x50#8, 0x11#8, 0x92#8, 0xD3#8, 0x14#8, 0x55#8, 0xD6#8, 0x97#8, 0xD8#8, 0x99#8, 0x1A#8, 0x5B#8, 0x9C#8, 0xDD#8,
        0x5E#8, 0x1F#8] ++
      [0x20#8, 0x61#8, 0xE2#8, 0xA3#8, 0x64#8, 0x25#8, 0xA6#8, 0xE7#8, 0xA8#8, 0xE9#8, 0x6A#8, 0x2B#8, 0xEC#8, 0xAD#8,
        0x2E#8, 0x6F#8] ++
      [0xF0#8, 0xB1#8, 0x32#8, 0x73#8, 0xB4#8, 0xF5#8, 0x76#8, 0x37#8, 0x78#8, 0x39#8, 0xBA#8, 0xFB#8, 0x3C#8, 0x7D#8,
        0xFE#8, 0xBF#8] := by
  decide +kernel

/-- 95_test_vectors.md §4, rows 6, 7, 9 and the sleep frame. -/
theorem test_checksums :
    computeChecksum 0x00#8 [0x4A#8, 0x55#8, 0x93#8, 0xE5#8] = 0xE6#8 ∧
    computeChecksum 0xC1#8 [0x4A#8, 0x55#8, 0x93#8, 0xE5#8] = 0x25#8 ∧
    computeChecksum 0x00#8 [0x80#8, 0x80#8] = 0xFE#8 ∧ computeChecksum 0x00#8 Config.sleepPayload = 0x00#8 := by
  decide +kernel

/-- 95_test_vectors.md §5: correct, injected, negative zero, and 0xFF where it is not that corner. -/
theorem test_verification :
    responseValid 0x61#8 [0x11#8, 0x22#8] 0x6B#8 = true ∧ responseValid 0x61#8 [0x11#8, 0x22#8] 0x6A#8 = false ∧
    responseValid 0x00#8 Config.sleepPayload 0xFF#8 = true ∧ responseValid 0x50#8 [] 0xFF#8 = false := by
  decide +kernel

/-- 95_test_vectors.md §8, PID 0x50. -/
theorem test_header_waveform :
    headerBits 13 1 0 0x50#8 = List.replicate 13 false ++ [true] ++
      [false, true, false, true, false, true, false, true, false, true] ++
      [false, false, false, false, false, true, false, true, false, true] := by
  decide +kernel

/-- 40_bit_timing.md R66: a gap of two bit-times between the stop bit of SYNC (bit-time 23) and the start bit of the PID is
recessive. -/
theorem test_header_gap :
    (headerBits 13 1 2 0x50#8).drop 23 =
      [true, true, true, false, false, false, false, false, true, false, true, false, true] := by
  decide +kernel

/-- 10_state.md R31: one slave's byte is R31's `peer`; two slaves in one slot by log 30. -/
theorem test_peer_bytes :
    let ps : PeerScript := ⟨[(2, 0xF0#8), (3, 0x55#8), (2, 0x3C#8)], []⟩
    [ps.peer 1, ps.peer 2, ps.peer 3] = [0xFF#8, 0x30#8, 0x55#8] := by
  decide +kernel

/-- Vectors V12, V13: the checksum byte of the response 11 22. -/
theorem test_rqChk_verdict :
    let s := { boot with
      busy := true, phase := .rqChk, sum := 0x94, rxCount := 2, lastPid := 0x61, env := { boot.env with rxFifo := [0x6B] } }
    statusWord (engineStep s) = 0x0B020003#32 ∧ frameInfoWord (engineStep s) = 0x00FF6B61#32 ∧
      (engineStep s).pend = .ok ∧ (engineStep { s with env := { s.env with rxFifo := [0x6A] } }).cnt.mChk = 1#32 := by
  decide +kernel

/-- Vectors V18, V16: the timeout wins over a waiting byte, the byte is not consumed; a frame error counts as general. -/
theorem test_rqData_priority :
    let s := { boot with busy := true, phase := .rqData, env := { boot.env with rxFifo := [0x11], tmoUf := true } }
    (engineStep s).pend = .timeout ∧ (engineStep s).env.rxFifo = [0x11#8] ∧ (engineStep s).cnt.mTmo = 1#32 ∧
      (engineStep { s with env := { s.env with tmoUf := false, ferr := true } }).cnt.mGen = 1#32 := by
  decide +kernel

/-- Vectors C8, C3's counters by rule (log 27): a wrap at 0xFFFFFFFF. -/
theorem test_detector_wraps :
    let s := { boot with
      cnt := { Counters.zero with s1Conf := 0xFFFFFFFF#32 }, env := { boot.env with statIn := 0b001000#6 } }
    (detectorStep 3 s).cnt.s1Conf = 0#32 ∧ readOffset (detectorStep 3 s) 0x70 = 0x00000008#32 := by
  decide +kernel

/-- Vectors A17, A18, A19, A21, A22. -/
theorem test_host_port :
    statusWord (hostRead 0x04 1 boot) = 0x00007102#32 ∧
    statusWord (after (hostWrite 0x22 4 1#32 boot)) = 0x00007102#32 ∧
    statusWord (after (hostWrite 0x20 4 0xAAAA#32 { boot with busy := true })) = 0x00003103#32 ∧
    (hostRead 0x1C 4 (after (hostWrite 0x1C 4 0x1234#32 boot))).hostData = 0#32 ∧
    (hostRead 0x08 4 (after (hostWrite 0x08 4 0xFF004B00#32 State.reset))).hostData = 0x00004B00#32 := by
  decide +kernel

/-- 20_memory.md R35: an 8-byte read that begins 4 below LIN_BASE reaches CMD; a 4-byte one there does not (R34). -/
theorem test_access_below_base :
    statusWord (hostRead (offsetOf 0x80 0x7C) 8 boot) = 0x00007102#32 ∧
      (hostRead (offsetOf 0x80 0x7C) 8 { boot with hostData := 5 }).hostData = 0#32 ∧
      statusWord (hostRead (offsetOf 0x80 0x7C) 4 boot) = 0x00000002#32 := by
  decide +kernel

/-! ## Witnesses: hypotheses that can be met -/

theorem witness_DecodeEncode :
    (Instr.transmit ⟨0x3F, 15, true, false, true, false⟩).WellFormed ∧
      decode 0x005F3F02#32 = .ok (.transmit ⟨0x3F, 15, true, false, true, false⟩) :=
  ⟨rfl, rfl⟩

theorem witness_DecodeMatchesTable : (5#4).toNat < 6 ∧ decode 5#32 = .ok (.resetCounters default) :=
  ⟨by decide, rfl⟩

theorem witness_StepRunsDecoded :
    (writing 0x00321002#32 boot).events = .hostWrite 0x00 4 0x00321002#32 :: [] ∧
      decode 0x00321002#32 = .ok (.transmit ⟨0x10, 2, true, true, false, false⟩) ∧
      decodeTableWord 32 0x00321002 = some (.transmit ⟨0x10, 2, true, true, false, false⟩) :=
  ⟨rfl, rfl, rfl⟩

theorem witness_reservedBits : reservedBits (0x00000010#32).toNat ∧ reservedBits (0x80000000#32).toNat ∧
    reservedBits (0x00004002#32).toNat ∧ ¬ reservedBits (0x00FF3F06#32).toNat := by
  unfold reservedBits; decide

theorem witness_CmdWriteOrder :
    ({ boot with busy := true }).busy = true ∧
      (boot.busy = false ∧ reservedBits (0x01000006#32).toNat) ∧
      (boot.busy = false ∧ ¬ reservedBits (0x00FF3F06#32).toNat ∧ 6 ≤ (0x00FF3F06#32).toNat % 16) ∧
      (State.reset.busy = false ∧ ¬ reservedBits (0x00FF3F04#32).toNat ∧ 2 ≤ (0x00FF3F04#32).toNat % 16 ∧
        (0x00FF3F04#32).toNat % 16 ≤ 4 ∧ State.reset.initDone = false) := by
  unfold reservedBits; decide

/-- An opcode below the ones that need INIT and one above, before INIT; and one of them after INIT. -/
theorem witness_CmdWriteOrder_accepted :
    (State.reset.busy = false ∧ ¬ reservedBits (0x00000001#32).toNat ∧
        ((0x00000001#32).toNat % 16 < 2 ∧ 4 < (0x00FF3F05#32).toNat % 16)) ∧
      (¬ reservedBits (0x00FF3F05#32).toNat ∧ (0x00FF3F05#32).toNat % 16 < 6) ∧
      (boot.busy = false ∧ ¬ reservedBits (0x00000002#32).toNat ∧ (0x00000002#32).toNat % 16 < 6 ∧
        boot.initDone = true) := by
  unfold reservedBits; decide

/-- The hypotheses on a bad access: it reaches into the aperture and is no aligned word. -/
def badAt (off : Int) (size : Nat) : Prop :=
  off < 128 ∧ (0 ≤ off ∨ 0 < off + size) ∧ ¬ (size = 4 ∧ off % 4 = 0)

theorem witness_RefusalsRecorded :
    boot.err = false ∧ ({ boot with err := true, errCause := .badBaud }).err = true ∧
      sendsFrame (.sleep default) = true ∧ State.reset.busy = false ∧ State.reset.initDone = false ∧
      State.reset.baud = 0 ∧ boot.initDone = true ∧
      vecParams.fClk / (vecParams.prescale * ({ State.reset with baud := 1000001 }).baud.toNat) = 0 ∧
      badAt 127 4 ∧ badAt 0 2 ∧ badAt (-1) 2 := by
  unfold badAt; decide

theorem witness_NopCompletes : State.reset.busy = false ∧ (0x00FF3F00#32).toNat % 16 = 0 := by decide

/-- INIT's hypotheses on the vectors' parameters, at both ends of BIT_TICKS. -/
theorem witness_InitSetsUp :
    State.reset.busy = false ∧ State.reset.initDone = false ∧ ({ State.reset with baud := 1000000 }).baud ≠ 0 ∧
      vecParams.fClk / (vecParams.prescale * ({ State.reset with baud := 1000000 }).baud.toNat) = 1 ∧
      1 ≤ vecParams.fClk / (vecParams.prescale * ({ State.reset with baud := 1 }).baud.toNat) := by
  decide

/-- INIT's hypotheses on this implementation's own parameters hold at any rate that leaves a tick to a bit. -/
theorem witness_InitSetsUp_own (h : Config.params.prescale ≤ Config.params.fClk) :
    State.reset.busy = false ∧ State.reset.initDone = false ∧ ({ State.reset with baud := 1 }).baud ≠ 0 ∧
      1 ≤ Config.params.fClk / (Config.params.prescale * ({ State.reset with baud := 1 }).baud.toNat) := by
  have hp : 1 ≤ Config.params.prescale := Nat.le_max_left 1 _
  refine ⟨rfl, rfl, by decide, ?_⟩
  rw [show ({ State.reset with baud := 1 } : State).baud.toNat = 1 from rfl, Nat.mul_one]
  exact (Nat.one_le_div_iff hp).2 h

/-- A frame with eight bytes under the largest identifier, and a bare header under the smallest. -/
theorem witness_TransmitStartsFrame :
    boot.busy = false ∧ boot.initDone = true ∧
      (∀ f ∈ [(⟨0x3D, 8, true, true, true, false⟩ : CmdFields), ⟨0x00, 0, false, false, false, false⟩],
        f.id.toNat < 0x3E ∧ f.len ≤ 8 ∧ (f.dp = true ↔ f.len ≠ 0)) := by
  decide

theorem witness_ParameterErrors :
    0x3E ≤ (⟨0x3E, 1, true, false, false, false⟩ : CmdFields).id.toNat ∧
      (∀ f ∈ [(⟨0x3D, 1, false, true, true, false⟩ : CmdFields), ⟨0x3D, 0, true, false, false, false⟩],
        f.id.toNat < 0x3E ∧ ¬ (f.dp = true ↔ f.len ≠ 0)) ∧
      (∀ f ∈ [(⟨0x3D, 9, true, true, true, false⟩ : CmdFields)],
        f.id.toNat < 0x3E ∧ (f.dp = true ↔ f.len ≠ 0) ∧ 8 < f.len) := by
  decide

theorem witness_RequestStartsFrame :
    boot.busy = false ∧ boot.initDone = true ∧
      (∀ f ∈ [(⟨0x3D, 8, true, true, true, true⟩ : CmdFields), ⟨0x00, 0, false, true, false, false⟩],
        f.id.toNat < 0x3E ∧ f.len ≤ 8 ∧ (f.dp = true ↔ f.len ≠ 0)) := by
  decide

theorem witness_SleepStartsFrame :
    boot.busy = false ∧ boot.initDone = true ∧ boot.sleeping = false ∧ ({ boot with sleeping := true }).sleeping = true ∧
      (⟨0, 0, false, false, false, true⟩ : CmdFields).force = true := by
  decide

theorem witness_ResetCountersClears : boot.busy = false ∧ (0x00FF3F05#32).toNat % 16 = 5 := by decide

theorem witness_IgnoredFields :
    let f : CmdFields := ⟨0x10, 2, true, true, true, true⟩
    let g : CmdFields := ⟨0x10, 2, true, true, true, false⟩
    f.id = g.id ∧ f.len = g.len ∧ f.dp = g.dp ∧ f.enh = g.enh ∧ f.inj = g.inj ∧ f ≠ g := by
  decide

theorem witness_BadAccess : badAt 127 4 ∧ badAt 124 1 ∧ badAt 0 8 ∧ badAt (-1) 2 ∧ badAt (-4) 8 := by
  unfold badAt; decide

theorem witness_RegisterReads :
    ((128 : Int) ≤ 128) ∧ ((-4 : Int) < 0 ∧ (-4 : Int) + (4 : Nat) ≤ 0) ∧
      ((0 : Int) ≤ 124 ∧ (124 : Int) < 128 ∧ (124 : Int) % 4 = 0) ∧
      ∀ off ∈ [(124 : Int), -4], off ∉ [(0x00 : Int), 0x04, 0x08, 0x0C, 0x10, 0x14, 0x18, 0x20, 0x24, 0x40, 0x44, 0x48,
        0x4C, 0x50, 0x54, 0x58, 0x60, 0x64, 0x68, 0x70] := by
  decide

theorem witness_StorageWrites : boot.busy = false ∧ (0 : Int) ≤ 124 ∧ (124 : Int) < 128 ∧
    (124 : Int) % 4 = 0 ∧ (124 : Int) ∉ [(0x00 : Int), 0x08, 0x20, 0x24] := by
  decide

theorem witness_BusyWrites : ({ boot with busy := true, phase := .txData }).busy = true := by decide

theorem witness_DiagnosticDowngrade :
    (⟨0x3D, 4, true, true, false, false⟩ : CmdFields).id = 0x3D#6 ∧
      (⟨0x3C, 4, true, true, false, false⟩ : CmdFields).id = 0x3C#6 := by
  decide

/-- A state in a phase, with an engine step as its next event. -/
def inPhase (p : Phase) (op : FrameOp) : State :=
  { boot with
    busy := true, phase := p, events := [.engine]
    latch := { op := op, id := 0x10, txdp := true, len := 2, enhEff := true, inj := false, pid := 0x50, chkTx := 0xAC }
    env := { boot.env with
      txIdle := true, rxBlocked := true, txbl := true, txc := true, rxDisabled := true, rxFifo := [0x11#8] } }

/-- The line still owes a wakeup pulse and then a break; the transmitter is as given. -/
def owing (started : Bool) : State :=
  { boot with env := { boot.env with linePending := [.wake, .brk], txStarted := started, txBuf := [0x55#8] } }

theorem witness_EngineHeader :
    (inPhase .txArm .tx).phase = .txArm ∧ (inPhase .txWake .tx).phase = .txWake ∧ (inPhase .txHdr .tx).phase = .txHdr ∧
      (owing false).env.txStarted = false ∧ ((owing true).env.txStarted = true ∧ (owing true).env.linePending ≠ []) ∧
      (owing true).env.linePending = .wake :: [.brk] ∧
      (envStep .lineDone (owing false)).env.linePending = .brk :: [] := by
  decide

theorem witness_EngineSend :
    (inPhase .txData .tx).phase = .txData ∧ (inPhase .txChk .tx).phase = .txChk ∧
      (inPhase .txWaitc .tx).phase = .txWaitc ∧ (inPhase .txRxoffWait .tx).phase = .txRxoffWait := by
  decide

theorem witness_EngineCollision :
    [FrameOp.tx, .sl, .rq].map (fun o => ((inPhase .txColl o).phase, (inPhase .txColl o).latch.op)) =
      [(.txColl, .tx), (.txColl, .sl), (.txColl, .rq)] := by
  decide

theorem witness_PollPriority :
    ({ boot.env with tmoUf := true, ferr := true, rxFifo := [0x11#8] }).tmoUf = true ∧
      (({ boot.env with ovf := true }).tmoUf = false ∧ ({ boot.env with ovf := true }).ovf = true) ∧
      (inPhase .rqData .rq).env.rxFifo = 0x11#8 :: [] ∧ boot.env.rxFifo = [] ∧ boot.env.ferr = false ∧
      boot.env.ovf = false := by
  decide

theorem witness_EngineReceive :
    poll boot.env = .none ∧ poll { boot.env with tmoUf := true } = .tmo ∧ poll { boot.env with ferr := true } = .err ∧
      poll (inPhase .rqData .rq).env = .byte 0x11#8 ∧ (inPhase .rqChk .rq).phase = .rqChk ∧
      (inPhase .rqClean .rq).phase = .rqClean ∧ (inPhase .rqCleanWait .rq).phase = .rqCleanWait := by
  decide

/-- A step of each kind of event changes the phase: start, engine, reset; and one leaves it. -/
theorem witness_PhaseTable :
    (∃ t, step (writing 0x00321002#32 boot) = .next t ∧ t.phase = .txArm) ∧
      (∃ t, step (inPhase .txArm .tx) = .next t ∧ t.phase = .txHdr) ∧
      (∃ t, step { inPhase .rqClean .rq with events := [.reset Env.powerOn] } = .next t ∧ t.phase = .idle) ∧
      (∃ t, step { inPhase .rqClean .rq with events := [.env .tmoTick] } = .next t ∧ t.phase = .rqClean) :=
  ⟨⟨_, rfl, by decide +kernel⟩, ⟨_, rfl, by decide +kernel⟩, ⟨_, rfl, rfl⟩, ⟨_, rfl, rfl⟩⟩

theorem witness_ErrSticky :
    (∃ t, step { boot with err := true, errCause := .notInit, events := [.hostRead 0x02 4] } = .next t ∧
        t.errCause = .notInit) ∧
      (∃ t, step { boot with err := true, errCause := .notInit, events := [.reset Env.powerOn] } = .next t ∧
        t.err = false) :=
  ⟨⟨_, rfl, rfl⟩, ⟨_, rfl, rfl⟩⟩

theorem witness_TimingOnlyByInit :
    (∃ t, step (writing 0x00000000#32 boot) = .next t ∧ t.bitTime = boot.bitTime) ∧
      (∃ t, step { boot with events := [.reset Env.powerOn] } = .next t ∧ t.bitTime = 0) ∧
      (∃ t, initWith vecParams default { State.reset with baud := 0x4B00 } = .next t ∧ t.bitTime = 52#32) :=
  ⟨⟨_, rfl, rfl⟩, ⟨_, rfl, rfl⟩, ⟨_, rfl, by decide +kernel⟩⟩

theorem witness_StatusWriters :
    (∃ t, step (writing 0x00001002#32 boot) = .next t ∧ boot.busy = false ∧ t.busy = true) ∧
      (∃ t, step (inPhase .txColl .tx) = .next t ∧ (inPhase .txColl .tx).busy = true ∧ t.busy = false) ∧
      (∃ t, step (inPhase .rqCleanWait .rq) = .next t ∧ t.busy = false) ∧
      (∃ t, step { boot with events := [.reset Env.powerOn] } = .next t ∧ boot.initDone = true ∧ t.initDone = false) ∧
      (∃ t, step (inPhase .txColl .sl) = .next t ∧ (inPhase .txColl .sl).sleeping = false ∧ t.sleeping = true) ∧
      (∃ t, step { inPhase .txWake .tx with sleeping := true } = .next t ∧ t.sleeping = false) ∧
      (∃ t, step (writing 0x00000006#32 boot) = .next t ∧ boot.err = false ∧ t.err = true) ∧
      (∃ t, step { boot with err := true, errCause := .badBaud, events := [.reset Env.powerOn] } = .next t ∧
        t.err = false) := by
  and_intros <;> exact ⟨_, rfl, by decide +kernel⟩

theorem witness_CounterWriters :
    (∃ t, step { inPhase .txColl .tx with env := { boot.env with coll := true } } = .next t ∧ t.cnt.mConf = 1) ∧
      (∃ t, step (inPhase .rqChk .rq) = .next t ∧ t.cnt.mChk = 1) ∧
      (∃ t, step { boot with events := [.detector 5], env := { boot.env with statIn := 0b100000#6 } } = .next t ∧
        t.cnt.s1Gen = 1) ∧
      (∃ t, step (writing 0x00000005#32 { boot with cnt := ⟨1, 2, 3, 4, 5, 6, 7, 8, 9, 10⟩ }) = .next t ∧
        t.cnt = Counters.zero) := by
  and_intros <;> exact ⟨_, rfl, by decide +kernel⟩

theorem witness_FrameOperandsFixed :
    ∃ t, step (inPhase .rqData .rq) = .next t ∧ (inPhase .rqData .rq).busy = true ∧ t.busy = true ∧
      dataByte t.data 0 = 0x11#8 :=
  ⟨_, rfl, rfl, rfl, by decide +kernel⟩

theorem witness_EnvironmentDuties :
    (∃ t, step { boot with
        events := [.env (.slot 0x00#8)], env := { boot.env with txStarted := true, txBuf := [0x55#8] } } = .next t ∧
        boot.env.coll = false ∧ t.env.coll = true) ∧
      (∃ t, step (writing 0x00001002#32 { boot with env := { boot.env with coll := true } }) = .next t ∧
        t.env.coll = false) ∧
      (∃ t, step { boot with events := [.env (.txComplete true)] } = .next t ∧ boot.env.txc = false ∧
        t.env.txc = true) ∧
      ({ boot with env := { boot.env with rxBlock := true } }).env.rxBlock = true ∧
      ({ boot.env with rxFifo := [0x11#8] }).rxFifo = 0x11#8 :: [] ∧
      ({ boot with env := { boot.env with statIn := 1#6 } }).env.statIn.getLsbD (0 : Fin 6).val ≠
        boot.pinPrev.getLsbD (0 : Fin 6).val :=
  ⟨⟨_, rfl, rfl, rfl⟩, ⟨_, rfl, rfl⟩, ⟨_, rfl, rfl, rfl⟩, rfl, rfl, by decide⟩

/-- The timer has underflowed and is not stopped. -/
def underflowed : State :=
  { boot with events := [.env .tmoTick], env := { boot.env with tmoRunning := true, tmoUf := true } }

theorem witness_TimerCounts :
    1 ≤ 1 ∧ EnvEvent.lineDone ≠ .tmoTick ∧ underflowed.env.tmoRunning = true ∧ underflowed.env.tmoUf = true ∧
      ∃ t, step underflowed = .next t ∧ t.env.tmoUf = true :=
  ⟨by decide, by decide, rfl, rfl, _, rfl, rfl⟩

theorem witness_HardReset :
    ({ inPhase .txData .tx with events := [.reset boot.env] }).events = .reset boot.env :: [] := rfl

/-- Input 5 has toggled and is not yet counted. -/
def toggled : State := { boot with env := { boot.env with statIn := 0b100000#6 } }

theorem witness_DetectorStep :
    ¬ (boot.initDone = true ∧ boot.env.statIn.getLsbD (5 : Fin 6).val ≠ boot.pinPrev.getLsbD (5 : Fin 6).val) ∧
      toggled.initDone = true ∧ toggled.env.statIn.getLsbD (5 : Fin 6).val ≠ toggled.pinPrev.getLsbD (5 : Fin 6).val := by
  decide

theorem witness_ResetRace :
    toggled.busy = false ∧ toggled.initDone = true ∧
      toggled.env.statIn.getLsbD (5 : Fin 6).val ≠ toggled.pinPrev.getLsbD (5 : Fin 6).val := by
  decide

/-! ### Frames in progress that meet the invariant -/

/-- TRANSMIT of one byte 0x01 under 0x10, at TX_COLL; the slots as given. -/
def atTxColl (slots : List (Byte × Byte)) (coll : Bool) : State :=
  let d := setDataByte 0 0x01#8 boot.data
  { boot with
    data := d, busy := true, phase := .txColl, idx := 1, latch := latchFrame .tx 0x10 true 1 true false d
    lastPid := 0x50, lastChk := 0xAE, events := [.engine]
    env := { boot.env with slots := slots, coll := coll, rxBlock := true, txc := true, txStarted := true } }

/-- A bare header under 0x10, at TX_COLL. -/
def atBareTxColl : State :=
  { boot with
    busy := true, phase := .txColl, latch := latchFrame .tx 0x10 false 0 true false boot.data, lastPid := 0x50
    events := [.engine]
    env := { boot.env with
      slots := [(0x55#8, 0x55#8), (0x50#8, 0x50#8)], rxEnabled := true, txc := true, txStarted := true } }

/-- REQUEST of one byte under 0x21 in a phase, with the timer and the receiver as given. -/
def atRequest (p : Phase) (count : BitVec 4) (sum : Byte) (on : Bool) : State :=
  let d := setDataByte 0 0x11#8 boot.data
  { boot with
    data := d, busy := true, phase := p, idx := count, rxCount := count, sum := sum, pend := .ok
    latch := latchFrame .rq 0x21 false 1 true false d, lastPid := 0x61, events := [.engine]
    env := { boot.env with
      slots := [(0x55#8, 0x55#8), (0x61#8, 0x61#8)], rxEnabled := on, tmoRunning := on, tmoLeft := 2
      txStarted := true, rxDisabled := true, rxFifo := [0x8D#8] } }

theorem atTxColl_inv :
    Inv (atTxColl [(0x55#8, 0x55#8), (0x50#8, 0x50#8), (0x01#8, 0x01#8), (0xAE#8, 0xAE#8)] false) where
  busyIff := by decide
  busyInit := by decide
  sleepingInit := by decide
  errIff := by decide
  rxCountLe := by decide
  timingReset := nofun
  timingInit := fun _ => ⟨52, by decide, rfl, rfl, rfl⟩
  edgesOn := by decide
  latchInv := fun _ => by constructor <;> decide +kernel
  phaseInv := fun _ => by constructor <;> decide +kernel
  envInv := fun _ => by constructor <;> decide +kernel

theorem atTxColl_collided_inv :
    Inv (atTxColl [(0x55#8, 0x55#8), (0x50#8, 0x50#8), (0x01#8, 0x00#8), (0xAE#8, 0xAE#8)] true) where
  busyIff := by decide
  busyInit := by decide
  sleepingInit := by decide
  errIff := by decide
  rxCountLe := by decide
  timingReset := nofun
  timingInit := fun _ => ⟨52, by decide, rfl, rfl, rfl⟩
  edgesOn := by decide
  latchInv := fun _ => by constructor <;> decide +kernel
  phaseInv := fun _ => by constructor <;> decide +kernel
  envInv := fun _ => by constructor <;> decide +kernel

theorem atBareTxColl_inv : Inv atBareTxColl where
  busyIff := by decide
  busyInit := by decide
  sleepingInit := by decide
  errIff := by decide
  rxCountLe := by decide
  timingReset := nofun
  timingInit := fun _ => ⟨52, by decide, rfl, rfl, rfl⟩
  edgesOn := by decide
  latchInv := fun _ => by constructor <;> decide +kernel
  phaseInv := fun _ => by constructor <;> decide +kernel
  envInv := fun _ => by constructor <;> decide +kernel

theorem atRequest_inv :
    Inv (atRequest .txColl 0 0x61#8 true) ∧ Inv (atRequest .rqChk 1 0x72#8 true) ∧
      Inv (atRequest .rqCleanWait 1 0xFF#8 false) := by
  refine ⟨?_, ?_, ?_⟩
  all_goals exact {
    busyIff := by decide
    busyInit := by decide
    sleepingInit := by decide
    errIff := by decide
    rxCountLe := by decide
    timingReset := nofun
    timingInit := fun _ => ⟨52, by decide, rfl, rfl, rfl⟩
    edgesOn := by decide
    latchInv := fun _ => by constructor <;> decide +kernel
    phaseInv := fun _ => by constructor <;> decide +kernel
    envInv := fun _ => by constructor <;> decide +kernel }

theorem witness_InvKeptByStep :
    (∃ s t, Inv s ∧ step s = .next t ∧ s.phase = .rqChk ∧ t.phase = .rqClean) ∧
      (∃ s t, Inv s ∧ step s = .next t ∧ s.phase = .txColl ∧ t.phase = .idle) :=
  ⟨⟨_, _, atRequest_inv.2.1, rfl, rfl, rfl⟩, ⟨_, _, atTxColl_inv, rfl, rfl, rfl⟩⟩

theorem witness_FrameSentWhole :
    (∃ s, Inv s ∧ s.phase = .txColl ∧ s.latch.op ≠ .rq ∧ s.latch.txdp = true ∧ mismatch s.env.slots = false) ∧
      (∃ s, Inv s ∧ s.phase = .txColl ∧ s.latch.op ≠ .rq ∧ mismatch s.env.slots = true) ∧
      (∃ s, Inv s ∧ s.phase = .txColl ∧ s.latch.op = .rq) :=
  ⟨⟨_, atTxColl_inv, rfl, by decide, rfl, by decide⟩, ⟨_, atTxColl_collided_inv, rfl, by decide, by decide⟩,
    ⟨_, atRequest_inv.1, rfl, rfl⟩⟩

theorem witness_RequestVerdict :
    (∃ s, Inv s ∧ s.phase = .rqChk ∧ poll s.env = .byte 0x8D#8) ∧
      (∃ s, Inv s ∧ s.phase = .rqCleanWait ∧ s.env.rxDisabled = true) :=
  ⟨⟨_, atRequest_inv.2.1, rfl, rfl⟩, ⟨_, atRequest_inv.2.2, rfl, rfl⟩⟩

theorem witness_ExitTable :
    (∃ s, Inv s ∧ s.busy = true ∧ (engineStep s).busy = false ∧ s.latch.op = .rq) ∧
      (∃ s, Inv s ∧ s.busy = true ∧ (engineStep s).busy = false ∧ s.latch.op ≠ .rq ∧ s.latch.txdp = true) ∧
      (∃ s, Inv s ∧ s.busy = true ∧ (engineStep s).busy = false ∧ s.latch.op ≠ .rq ∧ s.latch.txdp = false) :=
  ⟨⟨_, atRequest_inv.2.2, rfl, rfl, rfl⟩, ⟨_, atTxColl_inv, rfl, rfl, by decide, rfl⟩,
    ⟨_, atBareTxColl_inv, rfl, rfl, by decide, rfl⟩⟩

/-! ### Scripts of the reference environment -/

/-- Vector V12's script, and V20's. -/
theorem witness_RequestAnswered :
    let f : CmdFields := ⟨0x21, 2, true, true, false, false⟩
    let ps : PeerScript := ⟨[], [.byte 0x11, .byte 0x22, .byte 0x6B]⟩
    boot.busy = false ∧ boot.initDone = true ∧ f.id.toNat < 0x3E ∧ f.len ≤ 8 ∧ (f.dp = true ↔ f.len ≠ 0) ∧
      [0x11#8, 0x22#8].length = f.len ∧ ps.rx = [0x11#8, 0x22#8].map RxEvent.byte ++ [.byte 0x6B] ++ [] ∧
      mismatch (observedSlots ps 0 [0x55#8, encodePid f.id]) = false := by
  decide +kernel

theorem witness_RequestHeaderCollides :
    let f : CmdFields := ⟨0x21, 2, true, true, false, false⟩
    boot.busy = false ∧ boot.initDone = true ∧ f.id.toNat < 0x3E ∧ f.len ≤ 8 ∧ (f.dp = true ↔ f.len ≠ 0) ∧
      mismatch (observedSlots ⟨[(1, 0x00#8)], []⟩ 0 [0x55#8, encodePid f.id]) = true := by
  decide +kernel

/-- Vectors V17 (a frame error at the checksum byte), V14 (the underflow after one byte), V19 (nobody answers). -/
theorem witness_RequestBreaksOff :
    let f : CmdFields := ⟨0x21, 2, true, true, false, false⟩
    boot.busy = false ∧ boot.initDone = true ∧ f.id.toNat < 0x3E ∧ f.len ≤ 8 ∧ (f.dp = true ↔ f.len ≠ 0) ∧
      ([0x11#8, 0x22#8].length ≤ f.len ∧
        (⟨[], [.byte 0x11, .byte 0x22, .frameError]⟩ : PeerScript).rx =
          [0x11#8, 0x22#8].map RxEvent.byte ++ .frameError :: []) ∧
      ([0x11#8].length ≤ f.len ∧
        (⟨[], [.byte 0x11, .timeout]⟩ : PeerScript).rx = [0x11#8].map RxEvent.byte ++ .timeout :: []) ∧
      PeerScript.silent.rx = [].map RxEvent.byte ∧
      mismatch (observedSlots PeerScript.silent 0 [0x55#8, encodePid f.id]) = false := by
  decide +kernel

theorem witness_TransmitRun :
    boot.busy = false ∧ boot.initDone = true ∧
      (∀ f ∈ [(⟨0x3D, 8, true, true, true, false⟩ : CmdFields), ⟨0x00, 0, false, false, false, false⟩],
        f.id.toNat < 0x3E ∧ f.len ≤ 8 ∧ (f.dp = true ↔ f.len ≠ 0)) := by
  decide

theorem witness_SleepRun :
    boot.busy = false ∧ boot.initDone = true ∧ boot.sleeping = false ∧
      (({ boot with sleeping := true }).sleeping = false ∨
        (⟨0, 0, false, false, false, true⟩ : CmdFields).force = true) := by
  decide

end Sys2Proof.Tests
end

section
/-! The engine's phases as records, and everything one engine step or one environment step can do, said once
(42_transmit.md R95, 43_request.md R108, 10_state.md R30). -/

namespace Sys2Proof.Machine

/-! ### The engine step of each phase -/

theorem engineStep_txArm {s : State} (h : s.phase = .txArm) : engineStep s = engTxArm s := by
  rw [engineStep, h]

theorem engineStep_txWake {s : State} (h : s.phase = .txWake) : engineStep s = engTxWake s := by
  rw [engineStep, h]

theorem engineStep_txHdr {s : State} (h : s.phase = .txHdr) : engineStep s = engTxHdr s := by
  rw [engineStep, h]

theorem engineStep_txData {s : State} (h : s.phase = .txData) : engineStep s = engTxData s := by
  rw [engineStep, h]

theorem engineStep_txChk {s : State} (h : s.phase = .txChk) : engineStep s = engTxChk s := by
  rw [engineStep, h]

theorem engineStep_txWaitc {s : State} (h : s.phase = .txWaitc) : engineStep s = engTxWaitc s := by
  rw [engineStep, h]

theorem engineStep_txRxoffWait {s : State} (h : s.phase = .txRxoffWait) : engineStep s = engTxRxoffWait s := by
  rw [engineStep, h]

theorem engineStep_txColl {s : State} (h : s.phase = .txColl) : engineStep s = engTxColl s := by
  rw [engineStep, h]

theorem engineStep_rqData {s : State} (h : s.phase = .rqData) : engineStep s = engRqData s := by
  rw [engineStep, h]

theorem engineStep_rqChk {s : State} (h : s.phase = .rqChk) : engineStep s = engRqChk s := by
  rw [engineStep, h]

theorem engineStep_rqClean {s : State} (h : s.phase = .rqClean) : engineStep s = engRqClean s := by
  rw [engineStep, h]

theorem engineStep_rqCleanWait {s : State} (h : s.phase = .rqCleanWait) : engineStep s = engRqCleanWait s := by
  rw [engineStep, h]

theorem engineStep_idle {s : State} (h : s.phase = .idle) : engineStep s = s := by
  rw [engineStep, h]

theorem engineStep_rqData_byte {s : State} {b : Byte} (hp : s.phase = .rqData) (h : poll s.env = .byte b) :
    engineStep s = receiveData b s := by
  rw [engineStep_rqData hp, engRqData, h]

theorem engineStep_rqChk_byte {s : State} {c : Byte} (hp : s.phase = .rqChk) (h : poll s.env = .byte c) :
    engineStep s = receiveChecksum c s := by
  rw [engineStep_rqChk hp, engRqChk, h]

theorem engineStep_poll_timeout {s : State} (hp : s.phase = .rqData ∨ s.phase = .rqChk) (h : poll s.env = .tmo) :
    engineStep s = receiveTimeout s := by
  obtain hp | hp := hp
  · rw [engineStep_rqData hp, engRqData, h]
  · rw [engineStep_rqChk hp, engRqChk, h]

theorem engineStep_poll_error {s : State} (hp : s.phase = .rqData ∨ s.phase = .rqChk) (h : poll s.env = .err) :
    engineStep s = receiveError s := by
  obtain hp | hp := hp
  · rw [engineStep_rqData hp, engRqData, h]
  · rw [engineStep_rqChk hp, engRqChk, h]

/-! ### The phases' results -/

theorem engTxArm_eq {s : State} (h : s.env.txIdle = true) (h' : s.env.rxBlocked = true) :
    engTxArm s = { s with phase := if s.sleeping then .txWake else .txHdr } :=
  if_pos (by simp [h, h'])

theorem engTxWake_eq (s : State) :
    engTxWake s =
      { s with
        sleeping := false, phase := .txHdr, env := { s.env with linePending := s.env.linePending ++ [.wake] }
        acts := s.acts ++ [.wakeupPulse] } := rfl

theorem engTxHdr_eq (s : State) :
    engTxHdr s =
      { s with
        lastPid := s.latch.pid, phase := if s.latch.txdp then .txData else .txWaitc
        env := { s.env with
          txBuf := s.env.txBuf ++ [Config.sync, s.latch.pid], txc := false
          linePending := s.env.linePending ++ [.brk] }
        acts := s.acts ++ [.txWrite Config.sync, .txWrite s.latch.pid, .armBreak] } := by
  simp [engTxHdr, actAll_eq, Env.act]

theorem engTxData_eq {s : State} (h : s.env.txbl = true) :
    engTxData s =
      { s with
        idx := s.idx + 1, phase := if s.idx + 1 = s.latch.len then .txChk else .txData
        env := { s.env with
          txBuf := s.env.txBuf ++ [payloadByte s.latch.op s.data s.idx.toNat], txc := false }
        acts := s.acts ++ [.txWrite (payloadByte s.latch.op s.data s.idx.toNat)] } :=
  if_pos h

theorem engTxChk_eq {s : State} (h : s.env.txbl = true) :
    engTxChk s =
      { s with
        lastChk := s.latch.chkTx, phase := .txWaitc
        env := { s.env with txBuf := s.env.txBuf ++ [s.latch.chkTx], txc := false }
        acts := s.acts ++ [.txWrite s.latch.chkTx] } :=
  if_pos h

theorem engTxWaitc_response_eq {s : State} (h : s.env.txc = true) (hd : s.latch.txdp = true) :
    engTxWaitc s =
      { s with
        phase := .txRxoffWait, env := { s.env with rxEnabled := false }, acts := s.acts ++ [.rxDisable] } :=
  (if_pos h).trans (if_pos hd)

theorem engTxWaitc_bare_eq {s : State} (h : s.env.txc = true) (hd : s.latch.txdp = false) :
    engTxWaitc s =
      { s with
        phase := .txColl, env := { s.env with rxBlock := false }, acts := s.acts ++ [.rxBlock false] } :=
  (if_pos h).trans (if_neg (by simp [hd]))

theorem engTxRxoffWait_eq {s : State} (h : s.env.rxDisabled = true) :
    engTxRxoffWait s = { s with phase := .txColl } :=
  if_pos h

theorem countCollision_eq (s : State) :
    countCollision s = { s with cnt := if s.env.coll then s.cnt.incMConf else s.cnt } := by
  unfold countCollision
  split <;> rfl

theorem engTxColl_transmit_eq {s : State} (h : s.latch.op = .tx) :
    engTxColl s =
      { s with
        cnt := if s.env.coll then s.cnt.incMConf else s.cnt, result := collResult s.env, busy := false
        phase := .idle } := by
  simp only [engTxColl, h, countCollision_eq, finish]

theorem engTxColl_sleep_eq {s : State} (h : s.latch.op = .sl) :
    engTxColl s =
      { s with
        cnt := if s.env.coll then s.cnt.incMConf else s.cnt, result := collResult s.env, busy := false
        phase := .idle, sleeping := true } := by
  simp only [engTxColl, h, countCollision_eq, finish]

theorem engTxColl_collided_eq {s : State} (h : s.latch.op = .rq) (hc : s.env.coll = true) :
    engTxColl s = { s with cnt := s.cnt.incMConf, pend := .abort, phase := .rqClean } := by
  simp only [engTxColl, h, countCollision_eq, hc, if_true]

theorem engTxColl_clear_eq {s : State} (h : s.latch.op = .rq) (hc : s.env.coll = false) :
    engTxColl s = { s with idx := 0, phase := if s.latch.len ≠ 0 then .rqData else .rqChk } := by
  simp only [engTxColl, h, countCollision_eq, hc, Bool.false_eq_true, if_false]

theorem engRqClean_eq (s : State) :
    engRqClean s =
      { s with
        phase := .rqCleanWait, env := { s.env with tmoRunning := false, rxEnabled := false }
        acts := s.acts ++ [.tmoStop, .rxDisable] } := by
  simp [engRqClean, actAll_eq, Env.act]

theorem receiveData_eq (b : Byte) (s : State) :
    receiveData b s =
      { s with
        data := setDataByte s.idx.toNat b s.data, sum := acc s.sum b, idx := s.idx + 1, rxCount := s.idx + 1
        phase := if s.idx + 1 = s.latch.len then .rqChk else .rqData
        env := { s.env with rxFifo := s.env.rxFifo.tail }, acts := s.acts ++ [.rxPop] } := rfl

theorem receiveChecksum_eq (c : Byte) (s : State) :
    receiveChecksum c s =
      { s with
        lastChk := c, sum := acc s.sum c, phase := .rqClean
        cnt := if acc s.sum c = 0xFF#8 then s.cnt else s.cnt.incMChk
        pend := if acc s.sum c = 0xFF#8 then .ok else .io
        env := { s.env with rxFifo := s.env.rxFifo.tail }, acts := s.acts ++ [.rxPop] } := by
  unfold receiveChecksum
  split
  · simp [act, Env.act]
  · simp [act, Env.act]

theorem engRqCleanWait_eq {s : State} (h : s.env.rxDisabled = true) :
    engRqCleanWait s = { s with result := s.pend, busy := false, phase := .idle } :=
  if_pos h

/-- Everything one engine step can do, by the phase it starts from: it holds, or it is one row of the tables of
42_transmit.md R95 and 43_request.md R108. -/
inductive EngineMove (s : State) : State → Prop
  | hold : EngineMove s s
  | arm (hp : s.phase = .txArm) : EngineMove s { s with phase := if s.sleeping then .txWake else .txHdr }
  | wake (hp : s.phase = .txWake) :
    EngineMove s
      { s with
        sleeping := false, phase := .txHdr, env := { s.env with linePending := s.env.linePending ++ [.wake] }
        acts := s.acts ++ [.wakeupPulse] }
  | header (hp : s.phase = .txHdr) :
    EngineMove s
      { s with
        lastPid := s.latch.pid, phase := if s.latch.txdp then .txData else .txWaitc
        env := { s.env with
          txBuf := s.env.txBuf ++ [Config.sync, s.latch.pid], txc := false
          linePending := s.env.linePending ++ [.brk] }
        acts := s.acts ++ [.txWrite Config.sync, .txWrite s.latch.pid, .armBreak] }
  | data (hp : s.phase = .txData) :
    EngineMove s
      { s with
        idx := s.idx + 1, phase := if s.idx + 1 = s.latch.len then .txChk else .txData
        env := { s.env with txBuf := s.env.txBuf ++ [payloadByte s.latch.op s.data s.idx.toNat], txc := false }
        acts := s.acts ++ [.txWrite (payloadByte s.latch.op s.data s.idx.toNat)] }
  | checksum (hp : s.phase = .txChk) :
    EngineMove s
      { s with
        lastChk := s.latch.chkTx, phase := .txWaitc
        env := { s.env with txBuf := s.env.txBuf ++ [s.latch.chkTx], txc := false }
        acts := s.acts ++ [.txWrite s.latch.chkTx] }
  | receiverOff (hp : s.phase = .txWaitc) (hd : s.latch.txdp = true) :
    EngineMove s
      { s with phase := .txRxoffWait, env := { s.env with rxEnabled := false }, acts := s.acts ++ [.rxDisable] }
  | unblock (hp : s.phase = .txWaitc) (hd : s.latch.txdp = false) :
    EngineMove s
      { s with phase := .txColl, env := { s.env with rxBlock := false }, acts := s.acts ++ [.rxBlock false] }
  | sent (hp : s.phase = .txRxoffWait) : EngineMove s { s with phase := .txColl }
  | endTransmit (hp : s.phase = .txColl) (hop : s.latch.op = .tx) :
    EngineMove s
      { s with
        cnt := if s.env.coll then s.cnt.incMConf else s.cnt, result := collResult s.env, busy := false
        phase := .idle }
  | endSleep (hp : s.phase = .txColl) (hop : s.latch.op = .sl) :
    EngineMove s
      { s with
        cnt := if s.env.coll then s.cnt.incMConf else s.cnt, result := collResult s.env, busy := false
        phase := .idle, sleeping := true }
  | collided (hp : s.phase = .txColl) (hop : s.latch.op = .rq) :
    EngineMove s { s with cnt := s.cnt.incMConf, pend := .abort, phase := .rqClean }
  | await (hp : s.phase = .txColl) (hop : s.latch.op = .rq) :
    EngineMove s { s with idx := 0, phase := if s.latch.len ≠ 0 then .rqData else .rqChk }
  | timeout (hp : s.phase = .rqData ∨ s.phase = .rqChk) :
    EngineMove s { s with cnt := s.cnt.incMTmo, pend := .timeout, phase := .rqClean }
  | frameError (hp : s.phase = .rqData ∨ s.phase = .rqChk) :
    EngineMove s { s with cnt := s.cnt.incMGen, pend := .io, phase := .rqClean }
  | receiveData (hp : s.phase = .rqData) (b : Byte) (hb : poll s.env = .byte b) :
    EngineMove s
      { s with
        data := setDataByte s.idx.toNat b s.data, sum := acc s.sum b, idx := s.idx + 1, rxCount := s.idx + 1
        phase := if s.idx + 1 = s.latch.len then .rqChk else .rqData
        env := { s.env with rxFifo := s.env.rxFifo.tail }, acts := s.acts ++ [.rxPop] }
  | receiveChecksum (hp : s.phase = .rqChk) (c : Byte) :
    EngineMove s
      { s with
        lastChk := c, sum := acc s.sum c, phase := .rqClean
        cnt := if acc s.sum c = 0xFF#8 then s.cnt else s.cnt.incMChk
        pend := if acc s.sum c = 0xFF#8 then .ok else .io
        env := { s.env with rxFifo := s.env.rxFifo.tail }, acts := s.acts ++ [.rxPop] }
  | clean (hp : s.phase = .rqClean) :
    EngineMove s
      { s with
        phase := .rqCleanWait, env := { s.env with tmoRunning := false, rxEnabled := false }
        acts := s.acts ++ [.tmoStop, .rxDisable] }
  | endRequest (hp : s.phase = .rqCleanWait) :
    EngineMove s { s with result := s.pend, busy := false, phase := .idle }

theorem engineStep_move (s : State) : EngineMove s (engineStep s) := by
  unfold engineStep
  cases hp : s.phase <;> dsimp only
  case idle => exact .hold
  case txArm =>
    unfold engTxArm
    split
    · exact .arm hp
    · exact .hold
  case txWake => rw [engTxWake_eq]; exact .wake hp
  case txHdr => rw [engTxHdr_eq]; exact .header hp
  case txData =>
    unfold engTxData
    split
    · exact .data hp
    · exact .hold
  case txChk =>
    unfold engTxChk
    split
    · exact .checksum hp
    · exact .hold
  case txWaitc =>
    cases hc : s.env.txc
    · simpa [engTxWaitc, hc] using EngineMove.hold
    · cases hd : s.latch.txdp
      · rw [engTxWaitc_bare_eq hc hd]; exact .unblock hp hd
      · rw [engTxWaitc_response_eq hc hd]; exact .receiverOff hp hd
  case txRxoffWait =>
    unfold engTxRxoffWait
    split
    · exact .sent hp
    · exact .hold
  case txColl =>
    cases hop : s.latch.op
    case tx => rw [engTxColl_transmit_eq hop]; exact .endTransmit hp hop
    case sl => rw [engTxColl_sleep_eq hop]; exact .endSleep hp hop
    case rq =>
      cases hc : s.env.coll
      · rw [engTxColl_clear_eq hop hc]; exact .await hp hop
      · rw [engTxColl_collided_eq hop hc]; exact .collided hp hop
  case rqData =>
    unfold engRqData
    split
    · exact .hold
    · exact .timeout (.inl hp)
    · exact .frameError (.inl hp)
    next b hb => rw [receiveData_eq]; exact .receiveData hp b hb
  case rqChk =>
    unfold engRqChk
    split
    · exact .hold
    · exact .timeout (.inr hp)
    · exact .frameError (.inr hp)
    next c _ => rw [receiveChecksum_eq]; exact .receiveChecksum hp c
  case rqClean => rw [engRqClean_eq]; exact .clean hp
  case rqCleanWait =>
    unfold engRqCleanWait
    split
    · exact .endRequest hp
    · exact .hold

/-! ### The environment -/

/-- Everything one environment step can do, by its event: nothing, where a duty forbids it or nothing is there to act on,
or the record given (10_state.md R30). -/
inductive EnvMove (s : State) : EnvEvent → State → Prop
  | hold (e : EnvEvent) : EnvMove s e s
  | txIdle (b : Bool) : EnvMove s (.txIdle b) { s with env := { s.env with txIdle := b } }
  | rxBlocked (b : Bool) : EnvMove s (.rxBlocked b) { s with env := { s.env with rxBlocked := b } }
  | txbl (b : Bool) : EnvMove s (.txbl b) { s with env := { s.env with txbl := b } }
  | rxDisabled (b : Bool) : EnvMove s (.rxDisabled b) { s with env := { s.env with rxDisabled := b } }
  | ferr (b : Bool) : EnvMove s (.ferr b) { s with env := { s.env with ferr := b } }
  | ovf (b : Bool) : EnvMove s (.ovf b) { s with env := { s.env with ovf := b } }
  | wakeDone (rest : List LineItem) (hl : s.env.linePending = .wake :: rest) :
    EnvMove s .lineDone { s with env := { s.env with linePending := rest }, bus := s.bus ++ [.wake] }
  | breakDone (rest : List LineItem) (hl : s.env.linePending = .brk :: rest) :
    EnvMove s .lineDone
      { s with env := { s.env with linePending := rest, txStarted := true }, bus := s.bus ++ [.brk] }
  | slot (o b : Byte) (rest : List Byte) (hst : s.env.txStarted = true) (hl : s.env.linePending = [])
    (hbuf : s.env.txBuf = b :: rest) :
    EnvMove s (.slot o)
      { s with
        env := { s.env with
          txBuf := rest, slots := s.env.slots ++ [(b, o)], coll := s.env.coll || o != b }
        bus := s.bus ++ [.byte b o] }
  | txComplete (b : Bool) (hbuf : b = true → s.env.txBuf = []) :
    EnvMove s (.txComplete b) { s with env := { s.env with txc := b } }
  | rxByte (b : Byte) (hblk : s.env.rxBlock ≠ true) :
    EnvMove s (.rxByte b) { s with env := { s.env with rxFifo := s.env.rxFifo ++ [b] } }
  | rxLose : EnvMove s .rxLose { s with env := { s.env with rxFifo := s.env.rxFifo.tail } }
  | tick (n : Nat) (hrun : s.env.tmoRunning = true) (hn : s.env.tmoLeft = n + 1) :
    EnvMove s .tmoTick { s with env := { s.env with tmoLeft := n, tmoUf := s.env.tmoUf || n == 0 } }
  | tmoFlag (b : Bool) (hstop : s.env.tmoRunning ≠ true) :
    EnvMove s (.tmoFlag b) { s with env := { s.env with tmoUf := b } }
  | toggle (k : Fin 6) (pins : Pins) : EnvMove s (.toggle k) { s with env := { s.env with statIn := pins } }

theorem envStep_move (e : EnvEvent) (s : State) : EnvMove s e (envStep e s) := by
  cases e with
  | txIdle b => exact .txIdle b
  | rxBlocked b => exact .rxBlocked b
  | txbl b => exact .txbl b
  | rxDisabled b => exact .rxDisabled b
  | ferr b => exact .ferr b
  | ovf b => exact .ovf b
  | rxLose => exact .rxLose
  | lineDone =>
    simp only [envStep, envLineDone]
    split
    next => exact .hold _
    next rest hl => exact .wakeDone rest hl
    next rest hl => exact .breakDone rest hl
  | slot o =>
    simp only [envStep, envSlot]
    split
    next b rest hst hl hbuf => exact .slot o b rest hst hl hbuf
    next => exact .hold _
  | txComplete b =>
    simp only [envStep, envTxComplete]
    split
    next => exact .hold _
    next hn => exact .txComplete b fun hb => by simpa [hb] using hn
  | rxByte b =>
    simp only [envStep, envRxByte]
    split
    next => exact .hold _
    next hblk => exact .rxByte b hblk
  | tmoTick =>
    simp only [envStep, envTmoTick]
    split
    next hrun =>
      split
      next => exact .hold _
      next n hn => exact .tick n hrun hn
    next => exact .hold _
  | tmoFlag b =>
    simp only [envStep, envTmoFlag]
    split
    next => exact .hold _
    next hstop => exact .tmoFlag b hstop
  | toggle k =>
    simp only [envStep, envToggle]
    split
    next => exact .hold _
    next => exact .toggle k _

end Sys2Proof.Machine
end

section
/-! The invariant under the steps that are not the engine's: reset, commands, the environment (10_state.md R23, R30). -/

namespace Sys2Proof.Machine

/-- Taking the next event out keeps the invariant. -/
theorem Inv.popEvent {s : State} (h : Inv s) : Inv (popEvent s) := by
  obtain ⟨es, n, hu⟩ := popEvent_frame s
  rw [hu]
  exact h.congr rfl rfl rfl rfl rfl rfl rfl rfl rfl rfl rfl rfl rfl rfl rfl rfl rfl

/-- The invariant holds after a reset, whatever the collaborators hold (70_reset_and_hazards.md R142, R143). -/
theorem inv_hardReset (after : Env) (s : State) : Inv (hardReset after s) := by
  constructor <;> simp [hardReset, State.resetWith]

/-- The state after INIT's effect, in one record (40_bit_timing.md R60). -/
theorem runInit_eq (p : Params) (bt : Nat) (s : State) :
    runInit p bt s =
      { s with
        env := { s.env with uartBaud := s.baud, edgeEnabled := true }
        acts := s.acts ++ [.uartConfig s.baud, .edgeEnable], bitTime := bitTimeReg bt, breakTime := breakTicks p bt
        guardTime := guardTicks p bt, pinPrev := s.env.statIn, initDone := true, result := .ok } := by
  simp only [runInit, actAll_eq, List.foldl, Env.act]

/-- INIT sets the timing values of its BIT_TICKS and enables the edges (40_bit_timing.md R60). -/
theorem Inv.runInit {s : State} (h : Inv s) (hb : s.busy = false) {bt : Nat} (hbt : bt ≠ 0) :
    Inv (runInit Config.params bt s) := by
  rw [runInit_eq]
  constructor
  case busyIff => exact h.busyIff
  case errIff => exact h.errIff
  case rxCountLe => exact h.rxCountLe
  case timingInit => exact fun _ => ⟨bt, Nat.pos_of_ne_zero hbt, rfl, rfl, rfl⟩
  all_goals simp [hb]

/-- A command that passed its checks latches a frame the rules allow (42_transmit.md R85, R86). -/
theorem latchFrame_inv {op : FrameOp} {id : FrameId} {txdp : Bool} {len : Nat} {enh inj : Bool} {d : Vector Byte 8}
    (hid : id.toNat < 0x3E) (hlen : len ≤ 8) (htx : txdp = true → len ≠ 0)
    (hsl : op = .sl → id = Config.sleepId ∧ txdp = true ∧ len = 8 ∧ enh = false ∧ inj = false)
    (hrq : op = .rq → txdp = false ∧ inj = false) (hbare : op = .tx → txdp = false → len = 0) :
    LatchInv (latchFrame op id txdp (BitVec.ofNat 4 len) enh inj d) d := by
  have hl : (BitVec.ofNat 4 len).toNat = len := by rw [BitVec.toNat_ofNat]; omega
  constructor
  case idValid => exact hid
  case lenLe => simpa only [latchFrame, hl] using hlen
  case pidEq => rfl
  case enhValid => simp [latchFrame, enhEffective]
  case txdpLen =>
    intro ht h0
    exact htx ht (by rw [← hl]; exact congrArg BitVec.toNat h0)
  case sleepFrame =>
    intro ho
    obtain ⟨h1, h2, h3, h4, h5⟩ := hsl ho
    exact ⟨h1, h2, by rw [← h3]; rfl, by simp [latchFrame, enhEffective, h4], h5⟩
  case request => exact hrq
  case bareHeader =>
    intro ho ht
    simp [latchFrame, hbare ho ht]
  case chkEq =>
    intro ht
    have ht : txdp = true := ht
    simp [latchFrame, ht]

/-- The engine's position in a frame that has just started. -/
theorem phaseInv_start {t : State} (hp : t.phase = .txArm) (hi : t.idx = 0)
    (hrq : t.latch.op = .rq → t.rxCount = 0 ∧ t.sum = checksumSeed t.latch.enhEff t.latch.pid) : PhaseInv t := by
  constructor
  case idxHeader => exact fun _ => hi
  case rxCountHeader => exact fun h _ => (hrq h).1
  case rxCountLen => intro h; simp [(hrq h).1]
  case sumEq => intro h _; simp [(hrq h).1, (hrq h).2, accum]
  all_goals simp [hp, Phase.receives, Phase.beforeHeader]

/-- The collaborators under a frame that has just started (42_transmit.md R86, 10_state.md R30). -/
theorem envInv_start {t : State} {e : Env} (hp : t.phase = .txArm) (he : t.env = e.frameStart ∨ ∃ n,
      t.env = { e.frameStart with tmoRunning := true, tmoLeft := n, tmoUf := false })
    (hrq : t.latch.op = .rq → t.env.tmoRunning = true) : EnvInv t := by
  have hw : writtenBytes t = [] := by simp [writtenBytes, hp, bytesWritten]
  constructor
  case timerOn => exact fun h _ => hrq h
  all_goals
    obtain he | ⟨n, he⟩ := he <;>
    simp [he, hp, hw, Env.frameStart, mismatch, Phase.beforeTxc]

/-- The start of a frame that passed its checks keeps the invariant. -/
theorem Inv.start {s t : State} (h : Inv s) (hi : s.initDone = true) (hb : t.busy = true) (hp : t.phase = .txArm)
    (hInit : t.initDone = s.initDone) (hErr : t.err = s.err) (hCause : t.errCause = s.errCause)
    (hBit : t.bitTime = s.bitTime) (hBreak : t.breakTime = s.breakTime) (hGuard : t.guardTime = s.guardTime)
    (hEdge : t.env.edgeEnabled = s.env.edgeEnabled) (hRx : t.rxCount.toNat ≤ 8) (hL : LatchInv t.latch t.data)
    (hP : PhaseInv t) (hE : EnvInv t) : Inv t := by
  have ht : t.initDone = true := hInit.trans hi
  constructor
  case busyIff => simp [hb, hp]
  case errIff => rw [hErr, hCause]; exact h.errIff
  case rxCountLe => exact hRx
  case timingReset => simp [ht]
  case timingInit => rw [hInit, hBit, hBreak, hGuard]; exact h.timingInit
  case edgesOn => rw [hInit, hEdge]; exact h.edgesOn
  case latchInv => exact fun _ => hL
  case phaseInv => exact fun _ => hP
  case envInv => exact fun _ => hE
  all_goals exact fun _ => ht

/-- A TRANSMIT or SLEEP that starts its frame keeps the invariant. -/
theorem Inv.startFrame {s : State} (h : Inv s) (hi : s.initDone = true) {op : FrameOp} {id : FrameId} {txdp : Bool}
    {len : Nat} {enh inj : Bool} (hop : op ≠ .rq)
    (hL : LatchInv (latchFrame op id txdp (BitVec.ofNat 4 len) enh inj s.data) s.data) :
    Inv (startFrame op id txdp (BitVec.ofNat 4 len) enh inj s) := by
  rw [startFrame_eq]
  exact h.start hi rfl rfl rfl rfl rfl rfl rfl rfl rfl h.rxCountLe hL
    (phaseInv_start rfl rfl fun ho => absurd ho hop) (envInv_start rfl (.inl rfl) fun ho => absurd ho hop)

/-- A REQUEST that starts its frame keeps the invariant (43_request.md R100). -/
theorem Inv.startRequest {s : State} (h : Inv s) (hi : s.initDone = true) {f : CmdFields} {n : Nat}
    (hf : checkParams f.id f.dp f.len = .ok) : Inv (startRequest n f s) := by
  obtain ⟨hid, -, hlen⟩ := checkParams_ok hf
  rw [startRequest_eq]
  exact h.start hi rfl rfl rfl rfl rfl rfl rfl rfl rfl (Nat.zero_le 8)
    (latchFrame_inv hid hlen nofun nofun (fun _ => ⟨rfl, rfl⟩) nofun)
    (phaseInv_start rfl rfl fun _ => ⟨rfl, rfl⟩) (envInv_start rfl (.inr ⟨n, rfl⟩) fun _ => rfl)

/-- Every command keeps the invariant. -/
theorem Inv.exec {s t : State} (h : Inv s) {i : Instr} (he : exec i s = .next t) : Inv t := by
  have hst : Inv (storeCmd i s) := h.congr rfl rfl rfl rfl rfl rfl rfl rfl rfl rfl rfl rfl rfl rfl rfl rfl rfl
  obtain ⟨c, hc, rfl⟩ | ⟨-, r, rfl⟩ | ⟨hb, -, -, -, hbt, rfl⟩ | ⟨-, -, rfl⟩ | ⟨-, hi, f, -, hf, rfl⟩ |
    ⟨-, hi, f, -, hf, rfl⟩ | ⟨-, hi, -, rfl⟩ := exec_cases he
  · exact h.refuse hc
  · exact hst.congr rfl rfl rfl rfl rfl rfl rfl rfl rfl rfl rfl rfl rfl rfl rfl rfl rfl
  · exact hst.runInit hb hbt
  · exact hst.congr rfl rfl rfl rfl rfl rfl rfl rfl rfl rfl rfl rfl rfl rfl rfl rfl rfl
  · obtain ⟨hid, hdp, hlen⟩ := checkParams_ok hf
    refine hst.startFrame hi (by decide) (latchFrame_inv hid hlen hdp.mp nofun nofun fun _ hd => ?_)
    by_contra h0
    simp [hdp.mpr h0] at hd
  · exact hst.startRequest hi hf
  · exact hst.startFrame (len := 8) hi (by decide)
      (latchFrame_inv (by decide) (by decide) nofun (fun _ => ⟨rfl, rfl, rfl, rfl, rfl⟩) nofun nofun)

/-- Every environment step keeps what holds of the collaborators during a frame: a byte sent moves from the waiting bytes
to the slots and COLL follows the comparator, and only after ARM_BREAK is a waveform owed a break (10_state.md R30). -/
theorem EnvInv.move {s t : State} {e : EnvEvent} (h : EnvInv s) (hm : EnvMove s e t) : EnvInv t := by
  cases hm with
  | hold => exact h
  | wakeDone rest hl =>
    exact { h with unstarted := fun hp => ⟨(h.unstarted hp).1, fun hin => (h.unstarted hp).2 (by simp [hl, hin])⟩ }
  | breakDone rest hl => exact { h with unstarted := fun hp => absurd (by simp [hl]) (h.unstarted hp).2 }
  | slot o b rest hst hl hbuf =>
    have hnt : s.env.txc ≠ true := fun hc => by simp [h.txcSent hc] at hbuf
    have hnb : s.phase.beforeHeader ≠ true := fun hp => by simp [(h.unstarted hp).1] at hst
    have hna : s.phase.beforeTxc ≠ false := fun hp => by simp [h.allSent hp] at hbuf
    exact { h with
      sentEq := by
        have hs := h.sentEq
        rw [hbuf] at hs
        simp only [List.map_append, List.map_cons, List.map_nil, List.append_assoc, List.cons_append, List.nil_append]
        exact hs
      collEq := by simp [h.collEq, mismatch]
      txcSent := fun hc => absurd hc hnt
      allSent := fun hp => absurd hp hna
      unstarted := fun hp => absurd hp hnb }
  | txComplete b hbuf => exact { h with txcSent := hbuf }
  | rxByte b hblk => exact { h with blocked := fun hp => absurd (h.blocked hp).1 hblk }
  | rxLose => exact { h with blocked := fun hp => ⟨(h.blocked hp).1, by simp [(h.blocked hp).2]⟩ }
  | _ => exact { h with }

/-- No environment step takes the edge detection back. -/
theorem EnvMove.edgeEnabled {s t : State} {e : EnvEvent}
    (h : EnvMove s e t) : t.env.edgeEnabled = s.env.edgeEnabled := by
  cases h <;> rfl

/-- Every environment step keeps the invariant. -/
theorem Inv.envStep {s : State} (h : Inv s) (e : EnvEvent) : Inv (envStep e s) := by
  have hedge := (envStep_move e s).edgeEnabled
  have henv := fun hb => (h.envInv hb).move (envStep_move e s)
  obtain ⟨env, bus, hs⟩ := envStep_frame e s
  rw [hs] at hedge henv ⊢
  exact { h with
    edgesOn := fun hi => hedge.trans (h.edgesOn hi)
    phaseInv := fun hb => (h.phaseInv hb).congr rfl rfl rfl rfl rfl rfl rfl rfl rfl
    envInv := henv }

end Sys2Proof.Machine
end

section
/-! The invariant under the engine's steps, phase by phase (42_transmit.md R95, 43_request.md R108). -/

namespace Sys2Proof.Machine

/-- A payload grows by the byte the engine sends next (42_transmit.md R90). -/
theorem payload_take_succ (op : FrameOp) (d : Vector Byte 8) {k : Nat} (hk : k < 8) :
    (payload op d).take (k + 1) = (payload op d).take k ++ [payloadByte op d k] := by
  have hl : k < (payload op d).length := by rw [payload_length]; exact hk
  rw [List.take_succ_eq_append_getElem hl, payloadByte, List.getD_eq_getElem _ _ hl]

/-- The bytes of a frame without a response of the master (20_memory.md R37). -/
theorem frameBytes_bare {l : Latch} (h : l.txdp = false) (d : Vector Byte 8) :
    frameBytes l d = [Config.sync, l.pid] := by
  simp [frameBytes, h]

/-- The bytes of a frame with a response of the master (20_memory.md R37). -/
theorem frameBytes_response {l : Latch} (h : l.txdp = true) (d : Vector Byte 8) :
    frameBytes l d = [Config.sync, l.pid] ++ (payload l.op d).take l.len.toNat ++ [l.chkTx] := by
  simp [frameBytes, h]

/-- The header and the first `k` data bytes of a frame (30_encoding.md R53). -/
theorem take_frameBytes {l : Latch} (h : l.txdp = true) (d : Vector Byte 8) {k : Nat} (hk : k ≤ l.len.toNat)
    (hl : l.len.toNat ≤ 8) :
    (frameBytes l d).take (2 + k) = [Config.sync, l.pid] ++ (payload l.op d).take k := by
  rw [frameBytes_response h, List.append_assoc, List.take_append, List.take_append_of_le_length, List.take_take]
  · rw [List.take_of_length_le (by simp)]
    simp [Nat.min_eq_left hk]
  · simp [payload_length]; omega

/-- Counting the next byte does not wrap: at most eight are counted. -/
theorem toNat_succ_idx {i n : BitVec 4} (hi : i.toNat < n.toNat) : (i + 1).toNat = i.toNat + 1 := by
  have h1 : (1 : BitVec 4).toNat = 1 := rfl
  have hn := n.isLt
  rw [BitVec.toNat_add, h1]
  omega

/-- What is written before the header: nothing. -/
theorem writtenBytes_beforeHeader {s : State} (h : s.phase.beforeHeader = true) : writtenBytes s = [] := by
  cases hp : s.phase <;> simp_all [writtenBytes, bytesWritten, Phase.beforeHeader]

/-- What is written in TX_DATA and TX_CHK: the header and `idx` data bytes. -/
theorem writtenBytes_data {s : State} (hp : s.phase = .txData ∨ s.phase = .txChk) (hd : s.latch.txdp = true)
    (hi : s.idx.toNat ≤ s.latch.len.toNat) (hl : s.latch.len.toNat ≤ 8) :
    writtenBytes s = [Config.sync, s.latch.pid] ++ (payload s.latch.op s.data).take s.idx.toNat := by
  rw [← take_frameBytes hd s.data hi hl]
  obtain hp | hp := hp <;> simp [writtenBytes, bytesWritten, hp]

/-- What is written from TX_WAITC on: the whole frame. -/
theorem writtenBytes_whole {s : State} (hp : s.phase = .txWaitc ∨ s.phase.beforeTxc = false ∧ s.phase ≠ .idle) :
    writtenBytes s = frameBytes s.latch s.data := by
  cases h : s.phase <;> simp_all [writtenBytes, bytesWritten, Phase.beforeTxc]

/-- What is written stays the same where neither the latched command nor the payload it sends changes. -/
theorem frameBytes_congr {l : Latch} {d d' : Vector Byte 8} (h : l.txdp = true → d' = d) :
    frameBytes l d' = frameBytes l d := by
  cases ht : l.txdp
  · rw [frameBytes_bare ht, frameBytes_bare ht]
  · rw [h ht]

/-- The engine's position while it sends: it moves among the transmit phases (42_transmit.md R95). -/
theorem PhaseInv.transmit {s t : State} (h : PhaseInv s) (hs : s.phase.transmits = true) (ht : t.phase.transmits = true)
    (hLatch : t.latch = s.latch) (hRx : t.rxCount = s.rxCount) (hSum : t.sum = s.sum) (hData : t.data = s.data)
    (hd : t.phase = .txData → t.latch.txdp = true ∧ t.idx.toNat < t.latch.len.toNat)
    (hc : t.phase = .txChk → t.latch.txdp = true ∧ t.idx = t.latch.len)
    (ho : t.phase = .txRxoffWait → t.latch.txdp = true)
    (hi : t.phase.beforeHeader = true → t.idx = 0)
    (hw : t.phase = .txWake → t.sleeping = true)
    (ha : t.phase ≠ .txArm → t.phase ≠ .txWake → t.sleeping = false)
    (hpid : t.phase.beforeHeader = false → t.lastPid = t.latch.pid) : PhaseInv t := by
  constructor
  case dataPhase => exact hd
  case chkPhase => exact hc
  case rxoffPhase => exact ho
  case idxHeader => exact hi
  case wakePhase => exact hw
  case awake => exact ha
  case lastPidEq => exact hpid
  case rxCountHeader => rw [hLatch, hRx]; exact fun hop _ => h.rxCountHeader hop hs
  case rxCountLen => rw [hLatch, hRx]; exact h.rxCountLen
  case sumEq => rw [hLatch, hRx, hSum, hData]; exact fun hop _ => h.sumEq hop (.inl hs)
  all_goals intro hp; cases hq : t.phase <;> simp [hq, Phase.transmits, Phase.receives] at ht hp

/-- The engine's position while it receives: what the header left stays (43_request.md R108). -/
theorem PhaseInv.receive {s t : State} (h : PhaseInv s) (hs : s.phase = .txColl ∨ s.phase.receives = true)
    (ht : t.phase.receives = true) (hop : s.latch.op = .rq) (hLatch : t.latch = s.latch)
    (hSleep : t.sleeping = s.sleeping) (hPid : t.lastPid = s.lastPid)
    (hlen : t.rxCount.toNat ≤ t.latch.len.toNat)
    (hd : t.phase = .rqData → t.idx.toNat < t.latch.len.toNat ∧ t.rxCount = t.idx)
    (hc : t.phase = .rqChk → t.rxCount = t.latch.len)
    (hsum : t.phase = .rqData ∨ t.phase = .rqChk →
      t.sum = accum (checksumSeed t.latch.enhEff t.latch.pid) (t.data.toList.take t.rxCount.toNat))
    (hpend : t.phase = .rqClean ∨ t.phase = .rqCleanWait →
      t.pend = .ok ∧ t.sum = 0xFF#8 ∨ t.pend = .abort ∨ t.pend = .timeout ∨ t.pend = .io) : PhaseInv t := by
  have hs' : s.phase ≠ .txArm ∧ s.phase ≠ .txWake ∧ s.phase.beforeHeader = false := by
    cases hq : s.phase <;> simp_all [Phase.receives, Phase.beforeHeader]
  obtain ⟨hs1, hs2, hs3⟩ := hs'
  have ht' : t.phase.transmits = false := by
    cases hq : t.phase <;> simp_all [Phase.receives, Phase.transmits]
  constructor
  case receivePhase => exact fun _ => hLatch ▸ hop
  case rqDataPhase => exact hd
  case rqChkPhase => exact hc
  case rxCountHeader => intro _ hp; rw [ht'] at hp; cases hp
  case rxCountLen => exact fun _ => hlen
  case awake => intro _ _; rw [hSleep]; exact h.awake hs1 hs2
  case lastPidEq => intro _; rw [hPid, hLatch]; exact h.lastPidEq hs3
  case sumEq => intro _ hp; exact hsum (hp.resolve_left (by simp [ht']))
  case pendOk => exact hpend
  all_goals intro hp; cases hq : t.phase <;> simp [hq, Phase.receives, Phase.beforeHeader] at ht hp

/-- The collaborators while the engine sends: bytes it writes wait behind those already written. -/
theorem EnvInv.sending {s t : State} (h : EnvInv s) (hs : s.phase.beforeTxc = true) (ht : t.phase.beforeTxc = true)
    (hLatch : t.latch = s.latch) (hSlots : t.env.slots = s.env.slots) (hColl : t.env.coll = s.env.coll)
    (hBlock : t.env.rxBlock = s.env.rxBlock) (hFifo : t.env.rxFifo = s.env.rxFifo)
    (hOn : t.env.rxEnabled = s.env.rxEnabled) (hTmo : t.env.tmoRunning = s.env.tmoRunning) {bs : List Byte}
    (hBuf : t.env.txBuf = s.env.txBuf ++ bs) (hw : writtenBytes t = writtenBytes s ++ bs)
    (htxc : t.env.txc = true → t.env.txBuf = [])
    (hu : t.phase.beforeHeader = true → t.env.txStarted = false ∧ LineItem.brk ∉ t.env.linePending) : EnvInv t := by
  have hs' : s.phase ≠ .rqCleanWait := fun hp => by rw [hp] at hs; cases hs
  have ht' : t.phase ≠ .rqCleanWait := fun hp => by rw [hp] at ht; cases ht
  constructor
  case sentEq => rw [hSlots, hBuf, hw, ← h.sentEq, List.append_assoc]
  case collEq => rw [hColl, hSlots]; exact h.collEq
  case txcSent => exact htxc
  case unstarted => exact hu
  case blocked => intro _; rw [hBlock, hFifo]; exact h.blocked (.inl hs)
  case receiverOn => intro _; rw [hOn]; exact h.receiverOn (.inl hs)
  case timerOn => intro hop _; rw [hTmo]; exact h.timerOn (hLatch ▸ hop) hs'
  all_goals simp [ht, ht']

/-- The phases after the wait for TXC and before RQ_CLEAN_WAIT: the frame is sent, the receiver stands. -/
def Phase.afterTxc (p : Phase) : Prop := p.beforeTxc = false ∧ p ≠ .idle ∧ p ≠ .rqCleanWait

/-- The collaborators after the frame was sent: at most the receive FIFO of a frame without data of its own moves. -/
theorem EnvInv.sent {s t : State} (h : EnvInv s) (hs : s.phase.afterTxc) (ht : t.phase.afterTxc)
    (hLatch : t.latch = s.latch) (hData : t.latch.txdp = true → t.data = s.data) {q : List Byte}
    (hEnv : t.env = { s.env with rxFifo := q }) (hq : t.latch.txdp = true → q = s.env.rxFifo) : EnvInv t := by
  obtain ⟨hs1, hs2, hs3⟩ := hs
  obtain ⟨ht1, ht2, ht3⟩ := ht
  have hb : t.phase.beforeHeader = false := by cases hp : t.phase <;> simp_all [Phase.beforeTxc, Phase.beforeHeader]
  constructor
  case sentEq =>
    rw [writtenBytes_whole (.inr ⟨ht1, ht2⟩), frameBytes_congr hData, hLatch, ← writtenBytes_whole (.inr ⟨hs1, hs2⟩),
      ← h.sentEq, hEnv]
  case collEq => rw [hEnv]; exact h.collEq
  case txcSent => rw [hEnv]; exact h.txcSent
  case allSent => rw [hEnv]; exact fun _ => h.allSent hs1
  case unstarted => simp [hb]
  case blocked =>
    intro hp
    have hd : t.latch.txdp = true := hp.resolve_left (by simp [ht1])
    obtain ⟨h1, h2⟩ := h.blocked (.inr (hLatch ▸ hd))
    rw [hEnv]
    exact ⟨h1, (hq hd).trans h2⟩
  case unblocked => rw [hEnv, hLatch]; exact fun _ => h.unblocked hs1
  case receiverOn =>
    rw [hEnv, hLatch]
    exact fun hp => h.receiverOn (.inr ⟨(hp.resolve_left (by simp [ht1])).1, hs3⟩)
  case receiverOff =>
    rw [hEnv, hLatch]
    exact fun hp => h.receiverOff (.inl ⟨hs1, (hp.resolve_right ht3).2⟩)
  case timerOn => rw [hEnv, hLatch]; exact fun hop _ => h.timerOn hop hs3
  case timerOff => exact fun hp => absurd hp ht3

/-- A frame in progress: what the invariant says of a state with BUSY = 1 and an engine step may change. -/
structure FrameInv (s : State) : Prop where
  busy : s.busy = true
  active : s.phase ≠ .idle
  edges : s.env.edgeEnabled = true
  rxCountLe : s.rxCount.toNat ≤ 8
  latch : LatchInv s.latch s.data
  phase : PhaseInv s
  env : EnvInv s

theorem Inv.frame {s : State} (h : Inv s) (hp : s.phase ≠ .idle) : FrameInv s :=
  have hb := h.busyIff.mpr hp
  ⟨hb, hp, h.edgesOn (h.busyInit hb), h.rxCountLe, h.latchInv hb, h.phaseInv hb, h.envInv hb⟩

theorem FrameInv.engTxArm {s : State} (h : FrameInv s) (hp : s.phase = .txArm) : FrameInv (engTxArm s) := by
  have hw := writtenBytes_beforeHeader (s := s) (by rw [hp]; rfl)
  have hi := h.phase.idxHeader (by rw [hp]; rfl)
  have hu := h.env.unstarted (by rw [hp]; rfl)
  have htr : s.phase.transmits = true := by rw [hp]; rfl
  have hbt : s.phase.beforeTxc = true := by rw [hp]; rfl
  unfold Machine.engTxArm
  split
  · cases hs : s.sleeping
    all_goals exact {
      h with
      active := nofun
      phase := h.phase.transmit htr rfl rfl rfl rfl rfl nofun nofun nofun (fun _ => hi) (by simp) (by simp) nofun
      env := h.env.sending hbt rfl rfl rfl rfl rfl rfl rfl rfl (List.append_nil _).symm
        (by rw [hw]; exact writtenBytes_beforeHeader rfl) h.env.txcSent fun _ => hu }
  · exact h

theorem FrameInv.engTxWake {s : State} (h : FrameInv s) (hp : s.phase = .txWake) : FrameInv (engTxWake s) := by
  have hw := writtenBytes_beforeHeader (s := s) (by rw [hp]; rfl)
  obtain ⟨hstart, hbrk⟩ := h.env.unstarted (by rw [hp]; rfl)
  rw [engTxWake_eq]
  exact {
    h with
    active := nofun
    phase := h.phase.transmit (by rw [hp]; rfl) rfl rfl rfl rfl rfl nofun nofun nofun
      (fun _ => h.phase.idxHeader (by rw [hp]; rfl)) nofun (fun _ _ => rfl) nofun
    env := h.env.sending (by rw [hp]; rfl) rfl rfl rfl rfl rfl rfl rfl rfl (List.append_nil _).symm
      (by rw [hw]; exact writtenBytes_beforeHeader rfl) h.env.txcSent fun _ => ⟨hstart, by simp [hbrk]⟩ }

theorem FrameInv.engTxHdr {s : State} (h : FrameInv s) (hp : s.phase = .txHdr) : FrameInv (engTxHdr s) := by
  have hi : s.idx = 0 := h.phase.idxHeader (by rw [hp]; rfl)
  have ha : s.sleeping = false := h.phase.awake (by simp [hp]) (by simp [hp])
  have hw := writtenBytes_beforeHeader (s := s) (by rw [hp]; rfl)
  have htr : s.phase.transmits = true := by rw [hp]; rfl
  have hbt : s.phase.beforeTxc = true := by rw [hp]; rfl
  rw [engTxHdr_eq]
  cases hd : s.latch.txdp
  · exact {
      h with
      active := nofun
      phase := h.phase.transmit htr rfl rfl rfl rfl rfl nofun nofun nofun nofun nofun (fun _ _ => ha) fun _ => rfl
      env := h.env.sending hbt rfl rfl rfl rfl rfl rfl rfl rfl rfl
        (by rw [hw]; exact Eq.trans (writtenBytes_whole (.inl rfl)) (frameBytes_bare hd _)) nofun nofun }
  · have hlen : 0 < s.latch.len.toNat := Nat.pos_of_ne_zero fun h0 =>
      h.latch.txdpLen hd (BitVec.eq_of_toNat_eq h0)
    have hi0 : s.idx.toNat = 0 := by rw [hi]; rfl
    exact {
      h with
      active := nofun
      phase := h.phase.transmit htr rfl rfl rfl rfl rfl (fun _ => ⟨hd, hi0 ▸ hlen⟩) nofun nofun nofun nofun
        (fun _ _ => ha) fun _ => rfl
      env := h.env.sending hbt rfl rfl rfl rfl rfl rfl rfl rfl rfl
        (by
          rw [hw]
          refine Eq.trans (writtenBytes_data (.inl rfl) hd (hi0 ▸ hlen.le) h.latch.lenLe) ?_
          simp [hi0]) nofun nofun }

theorem FrameInv.engTxData {s : State} (h : FrameInv s) (hp : s.phase = .txData) : FrameInv (engTxData s) := by
  obtain ⟨hd, hlt⟩ := h.phase.dataPhase hp
  have ha : s.sleeping = false := h.phase.awake (by simp [hp]) (by simp [hp])
  have hpid := h.phase.lastPidEq (by rw [hp]; rfl)
  have hl := h.latch.lenLe
  have hi := toNat_succ_idx hlt
  have hle : (s.idx + 1).toNat ≤ s.latch.len.toNat := hi ▸ hlt
  have hw : [Config.sync, s.latch.pid] ++ (payload s.latch.op s.data).take (s.idx + 1).toNat =
      writtenBytes s ++ [payloadByte s.latch.op s.data s.idx.toNat] := by
    rw [writtenBytes_data (.inl hp) hd hlt.le hl, List.append_assoc, ← payload_take_succ _ _ (by omega), hi]
  have htr : s.phase.transmits = true := by rw [hp]; rfl
  have hbt : s.phase.beforeTxc = true := by rw [hp]; rfl
  cases hbl : s.env.txbl
  · simpa [Machine.engTxData, hbl] using h
  rw [engTxData_eq hbl]
  by_cases hlast : s.idx + 1 = s.latch.len
  · rw [if_pos hlast]
    exact {
      h with
      active := nofun
      phase := h.phase.transmit htr rfl rfl rfl rfl rfl nofun (fun _ => ⟨hd, hlast⟩) nofun nofun nofun
        (fun _ _ => ha) fun _ => hpid
      env := h.env.sending hbt rfl rfl rfl rfl rfl rfl rfl rfl rfl
        (Eq.trans (writtenBytes_data (.inr rfl) hd hle hl) hw) nofun nofun }
  · rw [if_neg hlast]
    have hlt' : (s.idx + 1).toNat < s.latch.len.toNat := lt_of_le_of_ne hle (mt BitVec.eq_of_toNat_eq hlast)
    exact {
      h with
      active := nofun
      phase := h.phase.transmit htr rfl rfl rfl rfl rfl (fun _ => ⟨hd, hlt'⟩) nofun nofun nofun nofun
        (fun _ _ => ha) fun _ => hpid
      env := h.env.sending hbt rfl rfl rfl rfl rfl rfl rfl rfl rfl
        (Eq.trans (writtenBytes_data (.inl rfl) hd hle hl) hw) nofun nofun }

theorem FrameInv.engTxChk {s : State} (h : FrameInv s) (hp : s.phase = .txChk) : FrameInv (engTxChk s) := by
  obtain ⟨hd, hi⟩ := h.phase.chkPhase hp
  have hw := writtenBytes_data (.inr hp) hd (by rw [hi]) h.latch.lenLe
  cases hbl : s.env.txbl
  · simpa [Machine.engTxChk, hbl] using h
  rw [engTxChk_eq hbl]
  exact {
    h with
    active := nofun
    phase := h.phase.transmit (by rw [hp]; rfl) rfl rfl rfl rfl rfl nofun nofun nofun nofun nofun
      (fun _ _ => h.phase.awake (by simp [hp]) (by simp [hp])) fun _ => h.phase.lastPidEq (by rw [hp]; rfl)
    env := h.env.sending (by rw [hp]; rfl) rfl rfl rfl rfl rfl rfl rfl rfl rfl
      (by rw [hw, hi]; exact Eq.trans (writtenBytes_whole (.inl rfl)) (frameBytes_response hd _)) nofun nofun }

theorem FrameInv.engTxWaitc {s : State} (h : FrameInv s) (hp : s.phase = .txWaitc) : FrameInv (engTxWaitc s) := by
  have ha : s.sleeping = false := h.phase.awake (by simp [hp]) (by simp [hp])
  have hpid := h.phase.lastPidEq (by rw [hp]; rfl)
  have htr : s.phase.transmits = true := by rw [hp]; rfl
  have hbt : s.phase.beforeTxc = true := by rw [hp]; rfl
  have hw : s.env.slots.map Prod.fst ++ s.env.txBuf = frameBytes s.latch s.data :=
    h.env.sentEq.trans (writtenBytes_whole (.inl hp))
  have htmo := fun hop => h.env.timerOn hop (by simp [hp])
  cases htxc : s.env.txc
  · simpa [Machine.engTxWaitc, htxc] using h
  cases hd : s.latch.txdp
  · rw [engTxWaitc_bare_eq htxc hd]
    exact {
      h with
      active := nofun
      phase := h.phase.transmit htr rfl rfl rfl rfl rfl nofun nofun nofun nofun nofun (fun _ _ => ha) fun _ => hpid
      env := {
        sentEq := hw.trans (Eq.symm (writtenBytes_whole (.inr ⟨rfl, nofun⟩)))
        collEq := h.env.collEq
        txcSent := h.env.txcSent
        allSent := fun _ => h.env.txcSent htxc
        unstarted := nofun
        blocked := by simp [hd, Phase.beforeTxc]
        unblocked := fun _ _ => rfl
        receiverOn := fun _ => h.env.receiverOn (.inl hbt)
        receiverOff := by simp [hd]
        timerOn := fun hop _ => htmo hop
        timerOff := nofun } }
  · rw [engTxWaitc_response_eq htxc hd]
    exact {
      h with
      active := nofun
      phase := h.phase.transmit htr rfl rfl rfl rfl rfl nofun nofun (fun _ => hd) nofun nofun (fun _ _ => ha)
        fun _ => hpid
      env := {
        sentEq := hw.trans (Eq.symm (writtenBytes_whole (.inr ⟨rfl, nofun⟩)))
        collEq := h.env.collEq
        txcSent := h.env.txcSent
        allSent := fun _ => h.env.txcSent htxc
        unstarted := nofun
        blocked := fun _ => h.env.blocked (.inl hbt)
        unblocked := by simp [hd]
        receiverOn := by simp [hd, Phase.beforeTxc]
        receiverOff := fun _ => rfl
        timerOn := fun hop _ => htmo hop
        timerOff := nofun } }

theorem FrameInv.engTxRxoffWait {s : State} (h : FrameInv s) (hp : s.phase = .txRxoffWait) :
    FrameInv (engTxRxoffWait s) := by
  unfold Machine.engTxRxoffWait
  split
  · exact {
      h with
      active := nofun
      phase := h.phase.transmit (by rw [hp]; rfl) rfl rfl rfl rfl rfl nofun nofun nofun nofun nofun
        (fun _ _ => h.phase.awake (by simp [hp]) (by simp [hp])) fun _ => h.phase.lastPidEq (by rw [hp]; rfl)
      env := h.env.sent (by rw [hp]; exact ⟨rfl, nofun, nofun⟩) ⟨rfl, nofun, nofun⟩ rfl (fun _ => rfl) rfl fun _ => rfl }
  · exact h

/-- The header of a REQUEST was sent: a collision ends it, else the engine waits for the response (43_request.md
R102). -/
theorem FrameInv.engTxColl_request {s : State} (h : FrameInv s) (hp : s.phase = .txColl) (hop : s.latch.op = .rq) :
    FrameInv (engTxColl s) := by
  have hrx : s.rxCount = 0 := h.phase.rxCountHeader hop (by rw [hp]; rfl)
  have hsum := h.phase.sumEq hop (.inl (by rw [hp]; rfl))
  have hlen := h.phase.rxCountLen hop
  have haft : s.phase.afterTxc := by rw [hp]; exact ⟨rfl, nofun, nofun⟩
  cases hc : s.env.coll
  · rw [engTxColl_clear_eq hop hc]
    by_cases hl : s.latch.len = 0
    · have hl' : ¬ s.latch.len ≠ 0 := not_not.mpr hl
      rw [if_neg hl']
      exact {
        h with
        active := nofun
        phase := h.phase.receive (.inl hp) rfl hop rfl rfl rfl hlen nofun (fun _ => hrx.trans hl.symm) (fun _ => hsum)
          nofun
        env := h.env.sent haft ⟨rfl, nofun, nofun⟩ rfl (fun _ => rfl) rfl fun _ => rfl }
    · rw [if_pos hl]
      have hpos : 0 < s.latch.len.toNat := Nat.pos_of_ne_zero fun h0 => hl (BitVec.eq_of_toNat_eq h0)
      exact {
        h with
        active := nofun
        phase := h.phase.receive (.inl hp) rfl hop rfl rfl rfl hlen (fun _ => ⟨hpos, hrx⟩) nofun (fun _ => hsum) nofun
        env := h.env.sent haft ⟨rfl, nofun, nofun⟩ rfl (fun _ => rfl) rfl fun _ => rfl }
  · rw [engTxColl_collided_eq hop hc]
    exact {
      h with
      active := nofun
      phase := h.phase.receive (.inl hp) rfl hop rfl rfl rfl hlen nofun nofun nofun fun _ => .inr (.inl rfl)
      env := h.env.sent haft ⟨rfl, nofun, nofun⟩ rfl (fun _ => rfl) rfl fun _ => rfl }

/-- A receive poll that breaks the response off leads to RQ_CLEAN, with TIMEOUT or IO to report (43_request.md R104). -/
theorem FrameInv.breakOff {s : State} (h : FrameInv s) (hp : s.phase = .rqData ∨ s.phase = .rqChk) (c : Counters)
    {r : ResultCode} (hr : r = .timeout ∨ r = .io) :
    FrameInv { s with cnt := c, pend := r, phase := .rqClean } := by
  have hrec : s.phase.receives = true := by obtain hp | hp := hp <;> rw [hp] <;> rfl
  have haft : s.phase.afterTxc := by obtain hp | hp := hp <;> rw [hp] <;> exact ⟨rfl, nofun, nofun⟩
  have hop := h.phase.receivePhase hrec
  exact {
    h with
    active := nofun
    phase := h.phase.receive (.inr hrec) rfl hop rfl rfl rfl (h.phase.rxCountLen hop) nofun nofun nofun
      fun _ => .inr (.inr hr)
    env := h.env.sent haft ⟨rfl, nofun, nofun⟩ rfl (fun _ => rfl) rfl fun _ => rfl }

/-- A data byte received extends the stored part of the response and its sum (43_request.md R104). -/
theorem FrameInv.receiveData {s : State} (h : FrameInv s) (hp : s.phase = .rqData) (b : Byte) :
    FrameInv (receiveData b s) := by
  have hrec : s.phase.receives = true := by rw [hp]; rfl
  have haft : s.phase.afterTxc := by rw [hp]; exact ⟨rfl, nofun, nofun⟩
  have hop := h.phase.receivePhase hrec
  obtain ⟨hlt, hrx⟩ := h.phase.rqDataPhase hp
  have hl := h.latch.lenLe
  have hi := toNat_succ_idx hlt
  have hle : (s.idx + 1).toNat ≤ s.latch.len.toNat := hi ▸ hlt
  have hnd : s.latch.txdp ≠ true := by simp [(h.latch.request hop).1]
  have hsum : acc s.sum b = accum (checksumSeed s.latch.enhEff s.latch.pid)
      ((setDataByte s.idx.toNat b s.data).toList.take (s.idx + 1).toNat) := by
    rw [hi, take_setDataByte _ _ _ (by omega), accum_append, h.phase.sumEq hop (.inr (.inl hp)), hrx]
  have hL : LatchInv s.latch (setDataByte s.idx.toNat b s.data) :=
    { h.latch with chkEq := fun hd => absurd hd hnd }
  rw [receiveData_eq]
  by_cases hlast : s.idx + 1 = s.latch.len
  · rw [if_pos hlast]
    exact {
      h with
      active := nofun
      rxCountLe := hle.trans hl
      latch := hL
      phase := h.phase.receive (.inr hrec) rfl hop rfl rfl rfl hle nofun (fun _ => hlast) (fun _ => hsum) nofun
      env := h.env.sent haft ⟨rfl, nofun, nofun⟩ rfl (fun hd => absurd hd hnd) rfl fun hd => absurd hd hnd }
  · rw [if_neg hlast]
    have hlt' : (s.idx + 1).toNat < s.latch.len.toNat := lt_of_le_of_ne hle (mt BitVec.eq_of_toNat_eq hlast)
    exact {
      h with
      active := nofun
      rxCountLe := hle.trans hl
      latch := hL
      phase := h.phase.receive (.inr hrec) rfl hop rfl rfl rfl hle (fun _ => ⟨hlt', rfl⟩) nofun (fun _ => hsum) nofun
      env := h.env.sent haft ⟨rfl, nofun, nofun⟩ rfl (fun hd => absurd hd hnd) rfl fun hd => absurd hd hnd }

/-- The checksum byte received: OK is to be reported only on a sum of 0xFF (43_request.md R105). -/
theorem FrameInv.receiveChecksum {s : State} (h : FrameInv s) (hp : s.phase = .rqChk) (c : Byte) :
    FrameInv (receiveChecksum c s) := by
  have hrec : s.phase.receives = true := by rw [hp]; rfl
  have hop := h.phase.receivePhase hrec
  have hnd : s.latch.txdp ≠ true := by simp [(h.latch.request hop).1]
  rw [receiveChecksum_eq]
  exact {
    h with
    active := nofun
    phase := h.phase.receive (.inr hrec) rfl hop rfl rfl rfl (h.phase.rxCountLen hop) nofun nofun nofun fun _ => by
      by_cases hv : acc s.sum c = 0xFF#8 <;> simp [hv]
    env := h.env.sent (by rw [hp]; exact ⟨rfl, nofun, nofun⟩) ⟨rfl, nofun, nofun⟩ rfl (fun _ => rfl) rfl
      fun hd => absurd hd hnd }

theorem FrameInv.engRqData {s : State} (h : FrameInv s) (hp : s.phase = .rqData) : FrameInv (engRqData s) := by
  unfold Machine.engRqData
  split
  · exact h
  · exact h.breakOff (.inl hp) _ (.inl rfl)
  · exact h.breakOff (.inl hp) _ (.inr rfl)
  · exact h.receiveData hp _

theorem FrameInv.engRqChk {s : State} (h : FrameInv s) (hp : s.phase = .rqChk) : FrameInv (engRqChk s) := by
  unfold Machine.engRqChk
  split
  · exact h
  · exact h.breakOff (.inr hp) _ (.inl rfl)
  · exact h.breakOff (.inr hp) _ (.inr rfl)
  · exact h.receiveChecksum hp _

theorem FrameInv.engRqClean {s : State} (h : FrameInv s) (hp : s.phase = .rqClean) : FrameInv (engRqClean s) := by
  have hrec : s.phase.receives = true := by rw [hp]; rfl
  have hop := h.phase.receivePhase hrec
  have hnd : s.latch.txdp = false := (h.latch.request hop).1
  have hb : s.phase.beforeTxc = false := by rw [hp]; rfl
  rw [engRqClean_eq]
  exact {
    h with
    active := nofun
    phase := h.phase.receive (.inr hrec) rfl hop rfl rfl rfl (h.phase.rxCountLen hop) nofun nofun nofun
      fun _ => h.phase.pendOk (.inl hp)
    env := {
      sentEq := (h.env.sentEq.trans (writtenBytes_whole (.inr ⟨hb, h.active⟩))).trans
        (Eq.symm (writtenBytes_whole (.inr ⟨rfl, nofun⟩)))
      collEq := h.env.collEq
      txcSent := h.env.txcSent
      allSent := fun _ => h.env.allSent hb
      unstarted := nofun
      blocked := by simp [hnd, Phase.beforeTxc]
      unblocked := fun _ => h.env.unblocked hb
      receiverOn := by simp [Phase.beforeTxc]
      receiverOff := fun _ => rfl
      timerOn := by simp
      timerOff := fun _ => rfl } }

/-- Every engine step in a frame keeps the invariant (42_transmit.md R95, 43_request.md R108). -/
theorem Inv.engineStep {s : State} (h : Inv s) : Inv (engineStep s) := by
  obtain ⟨-, hInit, hErr, hCause, -, hBit, hBreak, hGuard, -⟩ := engineStep_frame s
  have stays (hp : s.phase ≠ .idle) (hf : FrameInv (Machine.engineStep s)) : Inv (Machine.engineStep s) :=
    h.withinFrame (h.busyIff.mpr hp) hf.busy hf.active hInit hErr hCause hBit hBreak hGuard
      (hf.edges.trans (h.frame hp).edges.symm) hf.rxCountLe hf.latch hf.phase hf.env
  cases hp : s.phase <;> simp only [Machine.engineStep, hp] at stays ⊢
  case idle => exact h
  case txColl =>
    have hf := h.frame (by simp [hp])
    cases hop : s.latch.op
    case rq => exact stays nofun (hf.engTxColl_request hp hop)
    case tx =>
      rw [engTxColl_transmit_eq hop]
      exact h.endOfFrame hf.busy rfl rfl rfl rfl rfl rfl rfl rfl rfl rfl
    case sl =>
      rw [engTxColl_sleep_eq hop]
      exact h.endOfFrame hf.busy rfl rfl rfl rfl rfl rfl rfl rfl rfl rfl
  case rqCleanWait =>
    unfold engRqCleanWait
    split
    · exact h.endOfFrame (h.busyIff.mpr (by simp [hp])) rfl rfl rfl rfl rfl rfl rfl rfl rfl rfl
    · exact h
  case txArm => exact stays nofun ((h.frame (by simp [hp])).engTxArm hp)
  case txWake => exact stays nofun ((h.frame (by simp [hp])).engTxWake hp)
  case txHdr => exact stays nofun ((h.frame (by simp [hp])).engTxHdr hp)
  case txData => exact stays nofun ((h.frame (by simp [hp])).engTxData hp)
  case txChk => exact stays nofun ((h.frame (by simp [hp])).engTxChk hp)
  case txWaitc => exact stays nofun ((h.frame (by simp [hp])).engTxWaitc hp)
  case txRxoffWait => exact stays nofun ((h.frame (by simp [hp])).engTxRxoffWait hp)
  case rqData => exact stays nofun ((h.frame (by simp [hp])).engRqData hp)
  case rqChk => exact stays nofun ((h.frame (by simp [hp])).engRqChk hp)
  case rqClean => exact stays nofun ((h.frame (by simp [hp])).engRqClean hp)

/-- The invariant does not speak of what the last host read returned. -/
theorem Inv.hostData {s : State} (h : Inv s) (v : Word) : Inv { s with hostData := v } :=
  h.congr rfl rfl rfl rfl rfl rfl rfl rfl rfl rfl rfl rfl rfl rfl rfl rfl rfl

/-- Settles O50: the invariant is kept by every agent's step. -/
theorem invKeptByStep : Obligations.InvKeptByStep := by
  unfold Obligations.InvKeptByStep
  intro s t h hst
  have hu := h.popEvent
  obtain ⟨u, rfl, ⟨_, _, _, v, rfl⟩ | ⟨_, c, v, hc, rfl⟩ | rfl | ⟨i, _, he⟩ | ⟨hb, b, d, rfl⟩ | ⟨_, rfl⟩ | ⟨k, _, rfl⟩ |
    ⟨e, _, rfl⟩ | ⟨after, _, rfl⟩⟩ := step_cases hst
  · exact hu.hostData v
  · exact (hu.hostData v).refuse hc
  · exact hu
  · exact hu.exec he
  · exact hu.idle hb rfl rfl rfl rfl rfl rfl rfl rfl rfl rfl rfl
  · exact hu.engineStep
  · obtain ⟨pins, c, hd⟩ := detectorStep_frame k (popEvent s)
    rw [hd]
    exact hu.congr rfl rfl rfl rfl rfl rfl rfl rfl rfl rfl rfl rfl rfl rfl rfl rfl rfl
  · exact hu.envStep e
  · exact inv_hardReset after _

end Sys2Proof.Machine
end

section
/-! The register aperture: what each offset reads and stores, and the host's write of a command (10_state.md R14 to R21,
20_memory.md R34 to R38). -/

namespace Sys2Proof.Machine

/-- The value of concatenated bit strings, the right one lowest. -/
theorem toNat_append_add {n m : Nat} (x : BitVec n) (y : BitVec m) :
    (x ++ y).toNat = y.toNat + 2 ^ m * x.toNat := by
  rw [BitVec.toNat_append, ← Nat.shiftLeft_add_eq_or_of_lt y.isLt, Nat.shiftLeft_eq, Nat.add_comm, Nat.mul_comm]

@[simp] theorem flagBit_toNat (b : Bool) : (flagBit b).toNat = b.toNat := by
  cases b <;> rfl

/-- STATUS as a number (10_state.md R16). -/
theorem statusWord_toNat (s : State) :
    (statusWord s).toNat =
      s.busy.toNat + 2 * s.initDone.toNat + 4 * s.sleeping.toNat + 2 ^ 4 * s.result.code.toNat + 2 ^ 8 * s.err.toNat +
        2 ^ 12 * s.errCause.code.toNat + 2 ^ 16 * s.rxCount.toNat + 2 ^ 24 * s.phase.code.toNat := by
  simp only [statusWord, toNat_append_add, flagBit_toNat, BitVec.toNat_ofNat]
  omega

/-- FRAMEINFO as a number (10_state.md R19). -/
theorem frameInfoWord_toNat (s : State) :
    (frameInfoWord s).toNat = s.lastPid.toNat + 2 ^ 8 * s.lastChk.toNat + 2 ^ 16 * s.sum.toNat := by
  simp only [frameInfoWord, toNat_append_add, BitVec.toNat_ofNat]
  omega

/-- A data word as a number: DATA[base] lowest (20_memory.md R36). -/
theorem dataWord_toNat (base : Nat) (d : Vector Byte 8) :
    (dataWord base d).toNat = (dataByte d base).toNat + 2 ^ 8 * (dataByte d (base + 1)).toNat +
      2 ^ 16 * (dataByte d (base + 2)).toNat + 2 ^ 24 * (dataByte d (base + 3)).toNat := by
  simp only [dataWord, wordOfBytes, toNat_append_add]
  omega

@[simp] theorem ofOffset_offset (r : Reg) : Reg.ofOffset r.offset = some r := by
  cases r <;> rfl

theorem offset_of_ofOffset {off : Int} {r : Reg} (h : Reg.ofOffset off = some r) : r.offset = off := by
  have hr := List.find?_some h
  exact eq_of_beq hr

/-- Each register reads at its offset (10_state.md R14). -/
theorem readOffset_offset (s : State) (r : Reg) : readOffset s r.offset = readReg s r := by
  simp only [readOffset, ofOffset_offset]

/-- An offset the map leaves out reads 0 (20_memory.md R34). -/
theorem readOffset_unmapped (s : State) {off : Int} (h : off ∉ Reg.all.map Reg.offset) : readOffset s off = 0 := by
  unfold readOffset
  split
  next r hr => exact absurd (List.mem_map.mpr ⟨r, List.mem_of_find?_eq_some hr, offset_of_ofOffset hr⟩) h
  next => rfl

theorem inAperture_of_lt {off : Int} (h0 : 0 ≤ off) (h1 : off < 128) (size : Nat) : inAperture off size = true := by
  simp [inAperture, h0, h1]

theorem inAperture_outside {off : Int} {size : Nat} (h : 128 ≤ off ∨ off < 0 ∧ off + size ≤ 0) :
    inAperture off size = false := by
  simp only [inAperture, Bool.and_eq_false_iff, Bool.or_eq_false_iff, decide_eq_false_iff_not]
  omega

/-- An aligned 32-bit write within the aperture is the register's (20_memory.md R35). -/
theorem hostWrite_aligned {off : Int} (h0 : 0 ≤ off) (h1 : off < 128) (h4 : off % 4 = 0) (v : Word) (s : State) :
    hostWrite off 4 v s = writeOffset off v s := by
  simp [hostWrite, inAperture_of_lt h0 h1, goodAccess, h4]

/-- An aligned 32-bit read within the aperture returns the value at its offset (20_memory.md R35, R38). -/
theorem hostRead_aligned {off : Int} (h0 : 0 ≤ off) (h1 : off < 128) (h4 : off % 4 = 0) (s : State) :
    hostRead off 4 s = { s with hostData := readOffset s off } := by
  simp [hostRead, inAperture_of_lt h0 h1, goodAccess, h4]

/-- A 32-bit write to offset 0 is a write of CMD (10_state.md R15). -/
theorem hostWrite_cmd (v : Word) (s : State) : hostWrite 0x00 4 v s = writeCmd v s :=
  hostWrite_aligned (by decide) (by decide) (by decide) v s

/-- A word that decodes runs its command (30_encoding.md R49). -/
theorem writeCmd_of_decode {v : Word} {i : Instr} (h : decode v = .ok i) (s : State) : writeCmd v s = exec i s := by
  simp only [writeCmd, h]

/-- Four bytes of a word decode as the word (20_memory.md R36). -/
theorem decodeBytes_bytesOfWord (v : Word) : decodeBytes (bytesOfWord v) = decode v :=
  congrArg decode (wordOfBytes_extract v)

/-- A table word that names a command is a command word that decodes to it. -/
theorem decode_of_decodeTableWord {nbits w : Nat} {i : Instr} (h : decodeTableWord nbits w = some i) :
    decode (BitVec.ofNat 32 (tableWord nbits w)) = .ok i := by
  rw [decodeTableWord, decodeBytes_bytesOfWord] at h
  split at h
  · split at h
    next j hj => rw [hj, Option.some.inj h]
    next => cases h
  · cases h

/-- A step whose next event is a command's word written to CMD runs the command. -/
theorem step_hostWrite_cmd {s : State} {v : Word} {rest : List Event} {i : Instr}
    (he : s.events = .hostWrite 0x00 4 v :: rest) (hd : decode v = .ok i) :
    step s = exec i { s with events := rest } := by
  rw [← writeCmd_of_decode hd, ← hostWrite_cmd]
  simp only [step, nextEvent, popEvent, he, handle]

/-- Byte `k` of a word as a number. -/
theorem extract_byte_toNat (v : Word) (k : Nat) :
    (v.extractLsb' (8 * k) 8).toNat = v.toNat / 2 ^ (8 * k) % 2 ^ 8 := by
  rw [BitVec.extractLsb'_toNat, Nat.shiftRight_eq_div_pow]

/-- While no frame is in progress a storage register takes the word written (20_memory.md R38). -/
theorem writeStorage_idle {s : State} (h : s.busy = false) (store : State → State) :
    writeStorage store s = store s := by
  simp [writeStorage, h]

/-- A write to any other offset than those of CMD and the storage registers is ignored (20_memory.md R34, R38). -/
theorem writeOffset_ignored {off : Int} (h : off ∉ [0x00, 0x08, 0x20, 0x24]) (v : Word) (s : State) :
    writeOffset off v s = .next s := by
  unfold writeOffset
  split
  case h_5 => rfl
  all_goals
    next hr => exact absurd (offset_of_ofOffset hr ▸ by decide) h

/-- Settles O19: STATUS is the sum of its fields, each at its place. -/
theorem statusFields : Obligations.StatusFields := by
  unfold Obligations.StatusFields
  exact ⟨statusWord_toNat, by decide, by decide, by decide⟩

/-- Settles O20: a storage write replaces its own bytes, and the other offsets ignore the write. -/
theorem storageWrites : Obligations.StorageWrites := by
  unfold Obligations.StorageWrites
  intro v s
  refine ⟨fun hb => ⟨⟨v.setWidth 24, BitVec.toNat_setWidth 24 v, ?_⟩, ⟨setDataWord 0 v s.data, ?_, ?_, ?_, ?_⟩,
    ⟨setDataWord 4 v s.data, ?_, ?_, ?_, ?_⟩⟩, ?_⟩
  · rw [hostWrite_aligned (by decide) (by decide) (by decide)]
    exact congrArg _ (writeStorage_idle hb _)
  · rw [hostWrite_aligned (by decide) (by decide) (by decide)]
    exact congrArg _ (writeStorage_idle hb _)
  · exact dataWord_setDataWord s.data 0 v (by decide)
  · exact dataWord_setDataWord_other s.data 4 0 v (by decide) (by decide)
  · intro k hk
    rw [dataByte_setDataWord _ _ _ _ (by decide), if_pos (by omega), Nat.sub_zero, extract_byte_toNat]
  · rw [hostWrite_aligned (by decide) (by decide) (by decide)]
    exact congrArg _ (writeStorage_idle hb _)
  · exact dataWord_setDataWord s.data 4 v (by decide)
  · exact dataWord_setDataWord_other s.data 0 4 v (by decide) (by decide)
  · intro k hk
    rw [dataByte_setDataWord _ _ _ _ (by decide), if_pos (by omega), Nat.add_sub_cancel_left, extract_byte_toNat]
  · intro off h0 h1 h4 hoff
    rw [hostWrite_aligned h0 h1 h4, writeOffset_ignored hoff]

/-- Settles O6: the step takes the event out and runs the command its word decodes to. -/
theorem stepRunsDecoded : Obligations.StepRunsDecoded := by
  unfold Obligations.StepRunsDecoded
  exact ⟨fun _ _ _ _ he hd => step_hostWrite_cmd he hd,
    fun _ _ _ _ h => step_hostWrite_cmd rfl (decode_of_decodeTableWord h)⟩

/-- Settles O18: each offset's value, and reads without a side effect. -/
theorem registerReads : Obligations.RegisterReads := by
  unfold Obligations.RegisterReads
  intro s
  have reads := readOffset_offset s
  refine ⟨fun off size v h => ?_, fun off h0 h1 h4 => hostRead_aligned h0 h1 h4 s, reads .cmd, reads .status, ?_,
    reads .bitTime, reads .breakTime, reads .guardTime, ?_, ?_, ?_, reads .cntMChk, reads .cntMConf, reads .cntMGen,
    reads .cntMTmo, reads .cntS0Chk, reads .cntS0Conf, reads .cntS0Gen, reads .cntS1Chk, reads .cntS1Conf,
    reads .cntS1Gen, ?_, fun off h => readOffset_unmapped s h⟩
  · simp [hostRead, hostWrite, inAperture_outside h]
  · exact (congrArg _ (reads .baud)).trans (BitVec.toNat_setWidth_of_le (by decide))
  · exact (congrArg _ (reads .frameInfo)).trans (frameInfoWord_toNat s)
  · exact (congrArg _ (reads .data0)).trans (dataWord_toNat 0 s.data)
  · exact (congrArg _ (reads .data1)).trans (dataWord_toNat 4 s.data)
  · exact (congrArg _ (reads .statIn)).trans (BitVec.toNat_setWidth_of_le (by decide))

/-- After reset every register but STATUS and STATIN reads 0 (70_reset_and_hazards.md R142). -/
theorem readReg_reset {r : Reg} (h1 : r ≠ .status) (h2 : r ≠ .statIn) : readReg State.reset r = 0 := by
  cases r
  case status => exact absurd rfl h1
  case statIn => exact absurd rfl h2
  all_goals rfl

/-- Settles O43: the registers' values in the reset state. -/
theorem resetState : Obligations.ResetState := by
  unfold Obligations.ResetState
  have reads := readOffset_offset State.reset
  refine ⟨reads .status, fun off h => ?_, ?_, rfl, rfl, rfl, rfl, rfl, rfl⟩
  · unfold readOffset
    split
    next r hr =>
      refine readReg_reset ?_ ?_ <;> rintro rfl <;> exact h (offset_of_ofOffset hr ▸ by decide)
    next => rfl
  · exact (congrArg _ (reads .statIn)).trans (BitVec.toNat_setWidth_of_le (by decide))

end Sys2Proof.Machine
end

section
/-! Who changes what: the flags of STATUS, the operands of a frame, the collaborators' flags and the receive timer
(10_state.md R23, R25, R30). -/

namespace Sys2Proof.Machine

/-! ### What commands change -/

/-- While a frame is in progress every command is refused (30_encoding.md R49). -/
theorem exec_busy {i : Instr} {s t : State} (h : exec i s = .next t) (hb : s.busy = true) :
    ∃ c, c ≠ .none ∧ t = refuse c s := by
  obtain h | ⟨hb', -⟩ | ⟨hb', -⟩ | ⟨hb', -⟩ | ⟨hb', -⟩ | ⟨hb', -⟩ | ⟨hb', -⟩ := exec_cases h
  · exact h
  all_goals rw [hb] at hb'; cases hb'

/-- What a command does to BUSY, INIT_DONE and SLEEPING (10_state.md R25). -/
theorem exec_status {i : Instr} {s t : State} (h : exec i s = .next t) :
    (t.busy = s.busy ∨ t.busy = true ∧ sendsFrame i = true ∧ t.phase = .txArm) ∧
      (t.initDone = s.initDone ∨ t.initDone = true ∧ (∃ f, i = .init f) ∧ s.busy = false ∧ s.baud ≠ 0) ∧
      t.sleeping = s.sleeping ∧ (s.err = true → t.err = true) := by
  obtain ⟨c, -, rfl⟩ | ⟨-, r, rfl⟩ | ⟨hb, -, hbaud, hi, -, rfl⟩ | ⟨-, -, rfl⟩ | ⟨-, -, f, rfl, -, rfl⟩ |
    ⟨-, -, f, rfl, -, rfl⟩ | ⟨-, -, ⟨f, rfl⟩, rfl⟩ := exec_cases h
  · exact ⟨.inl rfl, .inl rfl, rfl, fun _ => rfl⟩
  · exact ⟨.inl rfl, .inl rfl, rfl, id⟩
  · rw [runInit_eq]
    exact ⟨.inl rfl, .inr ⟨rfl, hi, hb, hbaud⟩, rfl, id⟩
  · exact ⟨.inl rfl, .inl rfl, rfl, id⟩
  · rw [startFrame_eq]
    exact ⟨.inr ⟨rfl, rfl, rfl⟩, .inl rfl, rfl, id⟩
  · rw [startRequest_eq]
    exact ⟨.inr ⟨rfl, rfl, rfl⟩, .inl rfl, rfl, id⟩
  · rw [startFrame_eq]
    exact ⟨.inr ⟨rfl, rfl, rfl⟩, .inl rfl, rfl, id⟩

/-- What a command does to the collaborators: nothing, INIT's configuration, or the start of a frame, with the timer for
a REQUEST (10_state.md R29, 43_request.md R101). -/
theorem exec_env {i : Instr} {s t : State} (h : exec i s = .next t) :
    t.env = s.env ∨ (∃ b, t.env = { s.env with uartBaud := b, edgeEnabled := true }) ∨
      (sendsFrame i = true ∧ t.phase = .txArm ∧ t.env = s.env.frameStart) ∨
      ((∃ f, i = .request f) ∧ t.phase = .txArm ∧ t.env =
        { s.env.frameStart with tmoRunning := true, tmoLeft := Config.params.timeoutTicks, tmoUf := false }) := by
  obtain ⟨c, -, rfl⟩ | ⟨-, r, rfl⟩ | ⟨-, -, -, -, -, rfl⟩ | ⟨-, -, rfl⟩ | ⟨-, -, f, rfl, -, rfl⟩ |
    ⟨-, -, f, rfl, -, rfl⟩ | ⟨-, -, ⟨f, rfl⟩, rfl⟩ := exec_cases h
  · exact .inl rfl
  · exact .inl rfl
  · rw [runInit_eq]
    exact .inr (.inl ⟨_, rfl⟩)
  · exact .inl rfl
  · rw [startFrame_eq]
    exact .inr (.inr (.inl ⟨rfl, rfl, rfl⟩))
  · rw [startRequest_eq]
    exact .inr (.inr (.inr ⟨⟨f, rfl⟩, rfl, rfl⟩))
  · rw [startFrame_eq]
    exact .inr (.inr (.inl ⟨rfl, rfl, rfl⟩))

/-! ### What engine steps change -/

/-- An engine step leaves BUSY but at the end of a frame (10_state.md R25). -/
theorem EngineMove.busy {s t : State} (h : EngineMove s t) :
    t.busy = s.busy ∨ t.busy = false ∧ (s.phase = .txColl ∨ s.phase = .rqCleanWait) ∧ t.phase = .idle := by
  cases h with
  | endTransmit hp _ => exact .inr ⟨rfl, .inl hp, rfl⟩
  | endSleep hp _ => exact .inr ⟨rfl, .inl hp, rfl⟩
  | endRequest hp => exact .inr ⟨rfl, .inr hp, rfl⟩
  | _ => exact .inl rfl

/-- SLEEPING falls in TX_WAKE and rises at the end of a sleep frame (44_counters_sleep.md R116). -/
theorem EngineMove.sleeping {s t : State} (h : EngineMove s t) :
    t.sleeping = s.sleeping ∨ t.sleeping = false ∧ s.phase = .txWake ∨
      t.sleeping = true ∧ s.phase = .txColl ∧ s.latch.op = .sl := by
  cases h with
  | wake hp => exact .inr (.inl ⟨rfl, hp⟩)
  | endSleep hp hop => exact .inr (.inr ⟨rfl, hp, hop⟩)
  | _ => exact .inl rfl

/-- DATA changes only by a byte received in RQ_DATA (43_request.md R104). -/
theorem EngineMove.data_eq {s t : State} (h : EngineMove s t) :
    t.data = s.data ∨
      s.phase = .rqData ∧ ∃ b, poll s.env = .byte b ∧ t.data = setDataByte s.idx.toNat b s.data := by
  cases h with
  | receiveData hp b hb => exact .inr ⟨hp, b, hb, rfl⟩
  | _ => exact .inl rfl

/-- No engine step moves COLL or TMO_UF, and TXC falls at most (10_state.md R30). -/
theorem EngineMove.flags {s t : State} (h : EngineMove s t) :
    t.env.coll = s.env.coll ∧ t.env.tmoUf = s.env.tmoUf ∧ (t.env.txc = true → s.env.txc = true) := by
  cases h with
  | header _ => exact ⟨rfl, rfl, nofun⟩
  | data _ => exact ⟨rfl, rfl, nofun⟩
  | checksum _ => exact ⟨rfl, rfl, nofun⟩
  | _ => exact ⟨rfl, rfl, id⟩

/-- What one step can do, in terms of the state before it: nothing but a read's value or a count; a refusal; a command; a
storage write; an engine step; an environment step; a reset (00_scope.md R9). -/
theorem step_moves {s t : State} (h : step s = .next t) :
    ∃ es n,
      (∃ v pins c, t = { s with events := es, draws := n, hostData := v, pinPrev := pins, cnt := c }) ∨
      (((∃ off size, nextEvent s = .hostRead off size) ∨ ∃ off size v, nextEvent s = .hostWrite off size v) ∧
        ∃ c v, t = refuse c { s with events := es, draws := n, hostData := v }) ∨
      (∃ i, (nextEvent s).commands i ∧ exec i { s with events := es, draws := n } = .next t) ∨
      (s.busy = false ∧ ∃ b d, t = { s with events := es, draws := n, baud := b, data := d }) ∨
      (nextEvent s = .engine ∧ EngineMove { s with events := es, draws := n } t) ∨
      (∃ e, nextEvent s = .env e ∧ t = envStep e { s with events := es, draws := n }) ∨
      (∃ after, nextEvent s = .reset after ∧ t = hardReset after { s with events := es, draws := n }) := by
  obtain ⟨es, n, hu⟩ := popEvent_frame s
  obtain ⟨u, rfl, hc⟩ := step_cases h
  rw [hu] at hc
  refine ⟨es, n, ?_⟩
  obtain ⟨_, _, _, v, rfl⟩ | ⟨hev, c, v, _, rfl⟩ | rfl | hcmd | hst | ⟨hev, rfl⟩ | ⟨k, _, rfl⟩ | henv | hreset := hc
  · exact .inl ⟨v, s.pinPrev, s.cnt, rfl⟩
  · exact .inr (.inl ⟨hev, c, v, rfl⟩)
  · exact .inl ⟨s.hostData, s.pinPrev, s.cnt, rfl⟩
  · exact .inr (.inr (.inl hcmd))
  · exact .inr (.inr (.inr (.inl hst)))
  · exact .inr (.inr (.inr (.inr (.inl ⟨hev, engineStep_move _⟩))))
  · obtain ⟨pins, c, hd⟩ := detectorStep_frame k { s with events := es, draws := n }
    exact .inl ⟨s.hostData, pins, c, hd⟩
  · exact .inr (.inr (.inr (.inr (.inr (.inl henv)))))
  · exact .inr (.inr (.inr (.inr (.inr (.inr hreset)))))

/-! ### The flags of STATUS -/

/-- Who changes BUSY (10_state.md R25). -/
theorem step_busy {s t : State} (h : step s = .next t) :
    t.busy = s.busy ∨
      t.busy = true ∧ (∃ i, (nextEvent s).commands i ∧ sendsFrame i = true) ∧ t.phase = .txArm ∨
      t.busy = false ∧ (nextEvent s = .engine ∧ (s.phase = .txColl ∨ s.phase = .rqCleanWait) ∧ t.phase = .idle ∨
        (nextEvent s).resets) := by
  obtain ⟨es, n, ⟨v, pins, c, rfl⟩ | ⟨_, c, v, rfl⟩ | ⟨i, hi, he⟩ | ⟨_, b, d, rfl⟩ | ⟨hev, hm⟩ | ⟨e, _, rfl⟩ |
    ⟨after, hev, rfl⟩⟩ := step_moves h
  · exact .inl rfl
  · exact .inl rfl
  · obtain ⟨hb | ⟨hb, hf, hp⟩, -⟩ := exec_status he
    · exact .inl hb
    · exact .inr (.inl ⟨hb, ⟨i, hi, hf⟩, hp⟩)
  · exact .inl rfl
  · obtain hb | ⟨hb, hp, ht⟩ := hm.busy
    · exact .inl hb
    · exact .inr (.inr ⟨hb, .inl ⟨hev, hp, ht⟩⟩)
  · obtain ⟨env, bus, hd⟩ := envStep_frame e { s with events := es, draws := n }
    rw [hd]
    exact .inl rfl
  · exact .inr (.inr ⟨rfl, .inr ⟨after, hev⟩⟩)

/-- Who changes INIT_DONE (10_state.md R25). -/
theorem step_initDone {s t : State} (h : step s = .next t) :
    t.initDone = s.initDone ∨
      t.initDone = true ∧ (∃ f, (nextEvent s).commands (.init f)) ∧ s.busy = false ∧ s.baud ≠ 0 ∨
      t.initDone = false ∧ (nextEvent s).resets := by
  obtain ⟨es, n, ⟨v, pins, c, rfl⟩ | ⟨_, c, v, rfl⟩ | ⟨i, hi, he⟩ | ⟨_, b, d, rfl⟩ | ⟨_, hm⟩ | ⟨e, _, rfl⟩ |
    ⟨after, hev, rfl⟩⟩ := step_moves h
  · exact .inl rfl
  · exact .inl rfl
  · obtain ⟨-, hd | ⟨hd, ⟨f, rfl⟩, hb⟩, -⟩ := exec_status he
    · exact .inl hd
    · exact .inr (.inl ⟨hd, ⟨f, hi⟩, hb⟩)
  · exact .inl rfl
  · cases hm <;> exact .inl rfl
  · obtain ⟨env, bus, hd⟩ := envStep_frame e { s with events := es, draws := n }
    rw [hd]
    exact .inl rfl
  · exact .inr (.inr ⟨rfl, after, hev⟩)

/-- Who changes SLEEPING (44_counters_sleep.md R116). -/
theorem step_sleeping {s t : State} (h : step s = .next t) :
    t.sleeping = s.sleeping ∨
      t.sleeping = true ∧ nextEvent s = .engine ∧ s.phase = .txColl ∧ s.latch.op = .sl ∨
      t.sleeping = false ∧ (nextEvent s = .engine ∧ s.phase = .txWake ∨ (nextEvent s).resets) := by
  obtain ⟨es, n, ⟨v, pins, c, rfl⟩ | ⟨_, c, v, rfl⟩ | ⟨i, _, he⟩ | ⟨_, b, d, rfl⟩ | ⟨hev, hm⟩ | ⟨e, _, rfl⟩ |
    ⟨after, hev, rfl⟩⟩ := step_moves h
  · exact .inl rfl
  · exact .inl rfl
  · obtain ⟨-, -, hs, -⟩ := exec_status he
    exact .inl hs
  · exact .inl rfl
  · obtain hs | ⟨hs, hp⟩ | ⟨hs, hp⟩ := hm.sleeping
    · exact .inl hs
    · exact .inr (.inr ⟨hs, .inl ⟨hev, hp⟩⟩)
    · exact .inr (.inl ⟨hs, hev, hp⟩)
  · obtain ⟨env, bus, hd⟩ := envStep_frame e { s with events := es, draws := n }
    rw [hd]
    exact .inl rfl
  · exact .inr (.inr ⟨rfl, .inr ⟨after, hev⟩⟩)

/-- Who changes ERR (10_state.md R25, 60_exceptions.md R128). -/
theorem step_err {s t : State} (h : step s = .next t) :
    t.err = s.err ∨
      t.err = true ∧ ((∃ off size, nextEvent s = .hostRead off size) ∨
        ∃ off size v, nextEvent s = .hostWrite off size v) ∨
      t.err = false ∧ (nextEvent s).resets := by
  obtain ⟨es, n, ⟨v, pins, c, rfl⟩ | ⟨hev, c, v, rfl⟩ | ⟨i, ⟨v, hev, _⟩, he⟩ | ⟨_, b, d, rfl⟩ | ⟨_, hm⟩ | ⟨e, _, rfl⟩ |
    ⟨after, hev, rfl⟩⟩ := step_moves h
  · exact .inl rfl
  · exact .inr (.inl ⟨rfl, hev⟩)
  · obtain ⟨-, -, -, hmono⟩ := exec_status he
    cases ht : t.err
    · cases hs : s.err
      · exact .inl rfl
      · rw [hmono hs] at ht
        cases ht
    · exact .inr (.inl ⟨rfl, .inr ⟨_, _, _, hev⟩⟩)
  · exact .inl rfl
  · cases hm <;> exact .inl rfl
  · obtain ⟨env, bus, hd⟩ := envStep_frame e { s with events := es, draws := n }
    rw [hd]
    exact .inl rfl
  · exact .inr (.inr ⟨rfl, after, hev⟩)

/-- Settles O38: each flag's rise and fall, read off the four lemmas on who changes it. -/
theorem statusWriters : Obligations.StatusWriters := by
  unfold Obligations.StatusWriters
  intro s t h
  have hb := step_busy h
  have hi := step_initDone h
  have hs := step_sleeping h
  have he := step_err h
  refine ⟨fun h0 h1 => ?_, fun h0 h1 => ?_, fun h0 h1 => ?_, fun h0 h1 => ?_, fun h0 h1 => ?_, fun h0 h1 => ?_,
    fun h0 h1 => ?_, fun h0 h1 => ?_⟩
  · simpa [h0, h1] using hb
  · simpa [h0, h1, and_assoc] using hb
  · simpa [h0, h1] using hi
  · simpa [h0, h1] using hi
  · simpa [h0, h1] using hs
  · simpa [h0, h1] using hs
  · simpa [h0, h1] using he
  · simpa [h0, h1] using he

/-- Settles O40: while a frame is in progress commands and storage writes are refused, and the engine keeps the operands. -/
theorem frameOperandsFixed : Obligations.FrameOperandsFixed := by
  unfold Obligations.FrameOperandsFixed
  intro s t h hb hb'
  obtain ⟨es, n, ⟨v, pins, c, rfl⟩ | ⟨_, c, v, rfl⟩ | ⟨i, _, he⟩ | ⟨hidle, -⟩ | ⟨hev, hm⟩ | ⟨e, _, rfl⟩ |
    ⟨after, _, rfl⟩⟩ := step_moves h
  · exact ⟨rfl, rfl, rfl, .inl rfl⟩
  · exact ⟨rfl, rfl, rfl, .inl rfl⟩
  · obtain ⟨c, -, rfl⟩ := exec_busy he hb
    exact ⟨rfl, rfl, rfl, .inl rfl⟩
  · rw [hb] at hidle
    cases hidle
  · obtain ⟨hl, hc, hbaud⟩ : t.latch = s.latch ∧ t.cmd = s.cmd ∧ t.baud = s.baud := by
      cases hm <;> exact ⟨rfl, rfl, rfl⟩
    exact ⟨hl, hc, hbaud, hm.data_eq.imp_right fun hd => ⟨hev, hd⟩⟩
  · obtain ⟨env, bus, hd⟩ := envStep_frame e { s with events := es, draws := n }
    rw [hd]
    exact ⟨rfl, rfl, rfl, .inl rfl⟩
  · cases hb'

/-! ### The collaborators' flags -/

/-- The comparator's flag rises in a slot observed as another byte than the one sent; no environment step clears it
(10_state.md R30 duty 2). -/
theorem EnvMove.coll {s t : State} {e : EnvEvent} (h : EnvMove s e t) :
    t.env.coll = s.env.coll ∨
      t.env.coll = true ∧ ∃ o b rest, e = .slot o ∧ s.env.txBuf = b :: rest ∧ o ≠ b ∧ t.bus = s.bus ++ [.byte b o] := by
  cases h with
  | slot o b rest _ _ hbuf =>
    by_cases ho : o = b
    · left; simp [ho]
    · right; exact ⟨by simp [ho], o, b, rest, rfl, hbuf, ho, rfl⟩
  | _ => exact .inl rfl

/-- TXC rises only with nothing left to send (10_state.md R30 duty 7). -/
theorem EnvMove.txc {s t : State} {e : EnvEvent} (h : EnvMove s e t) :
    t.env.txc = s.env.txc ∨ (t.env.txc = true → t.env.txBuf = []) := by
  cases h with
  | txComplete b hbuf => exact .inr hbuf
  | _ => exact .inl rfl

/-- No environment step but a tick moves a running timer (10_state.md R30 duty 3). -/
theorem EnvMove.timer {s t : State} {e : EnvEvent} (h : EnvMove s e t) (he : e ≠ .tmoTick)
    (hrun : s.env.tmoRunning = true) :
    t.env.tmoUf = s.env.tmoUf ∧ t.env.tmoLeft = s.env.tmoLeft ∧ t.env.tmoRunning = true := by
  cases h with
  | tick => exact absurd rfl he
  | tmoFlag b hstop => exact absurd hrun hstop
  | _ => exact ⟨rfl, rfl, hrun⟩

/-- One tick of a running timer: the count goes down to 0, and reaching it raises the flag (10_state.md R30 duty 3). -/
theorem envTmoTick_eq {s : State} (hrun : s.env.tmoRunning = true) :
    envStep .tmoTick s =
      { s with env := { s.env with tmoLeft := s.env.tmoLeft - 1, tmoUf := s.env.tmoUf || s.env.tmoLeft == 1 } } := by
  refine (if_pos hrun).trans ?_
  split
  next h0 =>
    have hleft : s.env.tmoLeft - 1 = s.env.tmoLeft := by omega
    have hflag : (s.env.tmoUf || s.env.tmoLeft == 1) = s.env.tmoUf := by simp [h0]
    rw [hleft, hflag]
  next n hn =>
    have hleft : s.env.tmoLeft - 1 = n := by omega
    have hflag : (s.env.tmoLeft == 1) = (n == 0) := by simp [hn]
    rw [hleft, hflag]

/-- Some ticks of a running timer: the flag is up when the last count of the timer was among them. -/
theorem envAll_ticks (m : Nat) {s : State} (hrun : s.env.tmoRunning = true) :
    envAll (List.replicate m .tmoTick) s =
      { s with env := { s.env with
        tmoLeft := s.env.tmoLeft - m, tmoUf := s.env.tmoUf || decide (1 ≤ s.env.tmoLeft ∧ s.env.tmoLeft ≤ m) } } := by
  induction m generalizing s with
  | zero =>
    have hflag : (s.env.tmoUf || decide (1 ≤ s.env.tmoLeft ∧ s.env.tmoLeft ≤ 0)) = s.env.tmoUf := by
      rw [decide_eq_false (by omega), Bool.or_false]
    rw [hflag]
    rfl
  | succ m ih =>
    have hcons : envAll (List.replicate (m + 1) .tmoTick) s =
        envAll (List.replicate m .tmoTick) (envStep .tmoTick s) := rfl
    rw [hcons, envTmoTick_eq hrun, ih (by exact hrun)]
    have hleft : s.env.tmoLeft - 1 - m = s.env.tmoLeft - (m + 1) := by omega
    have hflag : (s.env.tmoLeft == 1 || decide (1 ≤ s.env.tmoLeft - 1 ∧ s.env.tmoLeft - 1 ≤ m)) =
        decide (1 ≤ s.env.tmoLeft ∧ s.env.tmoLeft ≤ m + 1) := by
      rw [Bool.eq_iff_iff]
      simp only [Bool.or_eq_true, beq_iff_eq, decide_eq_true_eq]
      omega
    simp only [hleft, Bool.or_assoc, hflag]

/-- Who changes COLL (10_state.md R30 duties 1 and 2). -/
theorem step_coll {s t : State} (h : step s = .next t) :
    t.env.coll = s.env.coll ∨
      t.env.coll = true ∧ (∃ o b rest, nextEvent s = .env (.slot o) ∧ s.env.txBuf = b :: rest ∧ o ≠ b ∧
        t.bus = s.bus ++ [.byte b o]) ∨
      t.env.coll = false ∧ (∃ i, (nextEvent s).commands i ∧ sendsFrame i = true) ∧ t.phase = .txArm ∨
      (nextEvent s).resets := by
  obtain ⟨es, n, ⟨v, pins, c, rfl⟩ | ⟨_, c, v, rfl⟩ | ⟨i, hi, he⟩ | ⟨_, b, d, rfl⟩ | ⟨_, hm⟩ | ⟨e, hev, rfl⟩ |
    ⟨after, hev, rfl⟩⟩ := step_moves h
  · exact .inl rfl
  · exact .inl rfl
  · obtain henv | ⟨_, henv⟩ | ⟨hf, hp, henv⟩ | ⟨⟨f, rfl⟩, hp, henv⟩ := exec_env he
    · exact .inl (by rw [henv])
    · exact .inl (by rw [henv])
    · exact .inr (.inr (.inl ⟨by rw [henv]; rfl, ⟨i, hi, hf⟩, hp⟩))
    · exact .inr (.inr (.inl ⟨by rw [henv]; rfl, ⟨_, hi, rfl⟩, hp⟩))
  · exact .inl rfl
  · obtain ⟨hcoll, -⟩ := hm.flags
    exact .inl hcoll
  · obtain hc | ⟨hc, o, b, rest, rfl, hb, ho, hbus⟩ :=
      (envStep_move e { s with events := es, draws := n }).coll
    · exact .inl hc
    · exact .inr (.inl ⟨hc, o, b, rest, hev, hb, ho, hbus⟩)
  · exact .inr (.inr (.inr ⟨after, hev⟩))

/-- A step after which TXC is 1 where it was 0 leaves nothing to send, reset apart (10_state.md R30 duty 7). -/
theorem step_txc {s t : State} (h : step s = .next t) (h0 : s.env.txc = false) (h1 : t.env.txc = true) :
    t.env.txBuf = [] ∨ (nextEvent s).resets := by
  obtain ⟨es, n, ⟨v, pins, c, rfl⟩ | ⟨_, c, v, rfl⟩ | ⟨i, hi, he⟩ | ⟨_, b, d, rfl⟩ | ⟨_, hm⟩ | ⟨e, hev, rfl⟩ |
    ⟨after, hev, rfl⟩⟩ := step_moves h
  · exact absurd (h0.symm.trans h1) nofun
  · exact absurd (h0.symm.trans h1) nofun
  · obtain henv | ⟨_, henv⟩ | ⟨_, _, henv⟩ | ⟨_, _, henv⟩ := exec_env he
    · exact absurd (h0.symm.trans ((congrArg Env.txc henv).symm.trans h1)) nofun
    · exact absurd (h0.symm.trans ((congrArg Env.txc henv).symm.trans h1)) nofun
    · exact .inl (congrArg Env.txBuf henv)
    · exact .inl (congrArg Env.txBuf henv)
  · exact absurd (h0.symm.trans h1) nofun
  · obtain ⟨-, -, htxc⟩ := hm.flags
    exact absurd (h0.symm.trans (htxc h1)) nofun
  · obtain hc | hbuf := (envStep_move e { s with events := es, draws := n }).txc
    · exact absurd (h0.symm.trans (hc.symm.trans h1)) nofun
    · exact .inl (hbuf h1)
  · exact .inr ⟨after, hev⟩

/-- Settles O47: duties 1 and 4 by the actions, 2 and 7 by who changes COLL and TXC, 5 and 8 by the events' guards. -/
theorem environmentDuties : Obligations.EnvironmentDuties := by
  unfold Obligations.EnvironmentDuties
  refine ⟨fun e => ⟨rfl, rfl, rfl, rfl, rfl⟩, fun e b rest hq => congrArg List.tail hq, fun s t h => ⟨?_, ?_, ?_⟩,
    fun b s hb => if_pos hb, fun k s hi hk => if_pos (by simpa [hi] using hk)⟩
  · intro h0 h1
    simpa [h0, h1] using step_coll h
  · intro h0 h1
    simpa [h0, h1] using step_coll h
  · exact step_txc h

/-- The underflow flag of a running timer falls only with a REQUEST, which starts the timer again, or a reset
(10_state.md R30 duty 3, 43_request.md R101). -/
theorem step_tmoUf {s t : State} (h : step s = .next t) (hrun : s.env.tmoRunning = true) (huf : s.env.tmoUf = true) :
    t.env.tmoUf = true ∨
      (∃ f, (nextEvent s).commands (.request f)) ∧ t.env.tmoLeft = Config.params.timeoutTicks ∨
      (nextEvent s).resets := by
  obtain ⟨es, n, ⟨v, pins, c, rfl⟩ | ⟨_, c, v, rfl⟩ | ⟨i, hi, he⟩ | ⟨_, b, d, rfl⟩ | ⟨_, hm⟩ | ⟨e, hev, rfl⟩ |
    ⟨after, hev, rfl⟩⟩ := step_moves h
  · exact .inl huf
  · exact .inl huf
  · obtain henv | ⟨_, henv⟩ | ⟨_, _, henv⟩ | ⟨⟨f, rfl⟩, _, henv⟩ := exec_env he
    · exact .inl ((congrArg Env.tmoUf henv).trans huf)
    · exact .inl ((congrArg Env.tmoUf henv).trans huf)
    · exact .inl ((congrArg Env.tmoUf henv).trans huf)
    · exact .inr (.inl ⟨⟨f, hi⟩, congrArg Env.tmoLeft henv⟩)
  · exact .inl huf
  · obtain ⟨-, hflag, -⟩ := hm.flags
    exact .inl (hflag.trans huf)
  · by_cases hk : e = .tmoTick
    · rw [hk, envTmoTick_eq (by exact hrun)]
      exact .inl (by simp [huf])
    · obtain ⟨hflag, -⟩ := (envStep_move e { s with events := es, draws := n }).timer hk hrun
      exact .inl (hflag.trans huf)
  · exact .inr (.inr ⟨after, hev⟩)

/-- Settles O48: the ticks of a running timer counted, and who else moves its flag. -/
theorem timerCounts : Obligations.TimerCounts := by
  unfold Obligations.TimerCounts
  refine ⟨fun n m s hn => ?_, fun e s he hrun => (envStep_move e s).timer he hrun, fun s t h => step_tmoUf h⟩
  rw [envAll_ticks m (by rfl)]
  simp [Env.act, hn]

end Sys2Proof.Machine
end

section
/-! The reference environment: a round as steps of the machine, what it serves before an engine step, and rounds in a row
(10_state.md R31). -/

namespace Sys2Proof.Machine

/-! ### A round is a run of steps -/

/-- No environment step reads or changes the list of events. -/
theorem envStep_events (e : EnvEvent) (s : State) (es : List Event) :
    envStep e { s with events := es } = { envStep e s with events := es } := by
  cases e with
  | lineDone => simp only [envStep, envLineDone]; split <;> rfl
  | slot o => simp only [envStep, envSlot]; split <;> rfl
  | txComplete b => simp only [envStep, envTxComplete]; split <;> rfl
  | rxByte b => simp only [envStep, envRxByte]; split <;> rfl
  | tmoTick =>
    simp only [envStep, envTmoTick]
    split
    · split <;> rfl
    · rfl
  | tmoFlag b => simp only [envStep, envTmoFlag]; split <;> rfl
  | toggle k => simp only [envStep, envToggle]; split <;> rfl
  | _ => rfl

/-- No engine step reads or changes the list of events. -/
theorem engineStep_events (s : State) (es : List Event) :
    engineStep { s with events := es } = { engineStep s with events := es } := by
  obtain ⟨p, hp⟩ : ∃ p, s.phase = p := ⟨_, rfl⟩
  have hphase : State.phase { s with events := es } = p := hp
  cases p
  case idle => rw [engineStep_idle hp, engineStep_idle hphase]
  case txArm => rw [engineStep_txArm hp, engineStep_txArm hphase]; unfold engTxArm; split <;> rfl
  case txWake => rw [engineStep_txWake hp, engineStep_txWake hphase]; rfl
  case txHdr => rw [engineStep_txHdr hp, engineStep_txHdr hphase, engTxHdr_eq, engTxHdr_eq]
  case txData => rw [engineStep_txData hp, engineStep_txData hphase]; unfold engTxData; split <;> rfl
  case txChk => rw [engineStep_txChk hp, engineStep_txChk hphase]; unfold engTxChk; split <;> rfl
  case txWaitc =>
    rw [engineStep_txWaitc hp, engineStep_txWaitc hphase]
    unfold engTxWaitc
    split
    · split <;> rfl
    · rfl
  case txRxoffWait =>
    rw [engineStep_txRxoffWait hp, engineStep_txRxoffWait hphase]
    unfold engTxRxoffWait
    split <;> rfl
  case txColl =>
    rw [engineStep_txColl hp, engineStep_txColl hphase]
    simp only [engTxColl, countCollision_eq]
    split
    · rfl
    · rfl
    · split <;> rfl
  case rqData =>
    rw [engineStep_rqData hp, engineStep_rqData hphase]
    simp only [engRqData]
    cases poll s.env <;> rfl
  case rqChk =>
    rw [engineStep_rqChk hp, engineStep_rqChk hphase]
    simp only [engRqChk, receiveChecksum_eq]
    cases poll s.env <;> rfl
  case rqClean => rw [engineStep_rqClean hp, engineStep_rqClean hphase, engRqClean_eq, engRqClean_eq]
  case rqCleanWait =>
    rw [engineStep_rqCleanWait hp, engineStep_rqCleanWait hphase]
    unfold engRqCleanWait
    split <;> rfl

theorem step_envEvent (e : EnvEvent) (s : State) (rest : List Event) :
    step { s with events := .env e :: rest } = .next { envStep e s with events := rest } :=
  congrArg Host.Outcome.next (envStep_events e s rest)

theorem step_engineEvent (s : State) (rest : List Event) :
    step { s with events := .engine :: rest } = .next { engineStep s with events := rest } :=
  congrArg Host.Outcome.next (engineStep_events s rest)

theorem run_succ {n : Nat} {s t : State} (h : step s = .next t) : core.run (n + 1) s = core.run n t := by
  have hs : core.step s = .next t := h
  simp only [Host.Core.run, hs]

/-- Environment events at the head of the list run one after another. -/
theorem run_envEvents (es : List EnvEvent) (s : State) (n : Nat) (rest : List Event) :
    core.run (es.length + n) { s with events := es.map .env ++ rest } = core.run n { envAll es s with events := rest } := by
  induction es generalizing s with
  | nil => simp [envAll]
  | cons e es ih =>
    rw [List.length_cons, Nat.add_right_comm, List.map_cons, List.cons_append, run_succ (step_envEvent e s _)]
    exact ih (envStep e s)

/-- Settles O55: the round's environment events and its engine step, each one step of the machine. -/
theorem roundIsSteps : Obligations.RoundIsSteps := by
  unfold Obligations.RoundIsSteps
  intro ps s rest
  rw [refEvents, List.length_append, List.length_map, List.append_assoc, run_envEvents]
  exact run_succ (step_engineEvent _ rest)

/-! ### What the reference environment serves -/

theorem envAll_append (xs ys : List EnvEvent) (s : State) : envAll (xs ++ ys) s = envAll ys (envAll xs s) :=
  List.foldl_append

/-- A waveform as the line's record shows it. -/
def LineItem.onBus : LineItem → BusItem
  | .wake => .wake
  | .brk => .brk

/-- A slot as the line's record shows it. -/
def slotItem (p : Byte × Byte) : BusItem := .byte p.1 p.2

/-- All waveforms owed go out; a break among them starts the transmitter (40_bit_timing.md R64). -/
theorem envAll_lineDone (s : State) :
    envAll (List.replicate s.env.linePending.length .lineDone) s =
      { s with
        env := { s.env with linePending := [], txStarted := s.env.txStarted || s.env.linePending.contains .brk }
        bus := s.bus ++ s.env.linePending.map LineItem.onBus } := by
  generalize hl : s.env.linePending = l
  induction l generalizing s with
  | nil =>
    have hst : (s.env.txStarted || List.contains [] LineItem.brk) = s.env.txStarted := Bool.or_false _
    have hnone : envAll (List.replicate ([] : List LineItem).length .lineDone) s = s := rfl
    rw [hnone, hst, List.map_nil, List.append_nil, ← hl]
  | cons i rest ih =>
    have hcons : envAll (List.replicate (i :: rest).length .lineDone) s =
        envAll (List.replicate rest.length .lineDone) (envStep .lineDone s) := rfl
    rw [hcons]
    cases i
    case wake =>
      have h1 : envStep .lineDone s =
          { s with env := { s.env with linePending := rest }, bus := s.bus ++ [.wake] } := by
        simp only [envStep, envLineDone, hl]
      rw [h1, ih _ rfl]
      simp [LineItem.onBus]
    case brk =>
      have h1 : envStep .lineDone s =
          { s with env := { s.env with linePending := rest, txStarted := true }, bus := s.bus ++ [.brk] } := by
        simp only [envStep, envLineDone, hl]
      rw [h1, ih _ rfl]
      simp [LineItem.onBus]

/-- All bytes waiting go out, each seen through the bus (10_state.md R31). -/
theorem envAll_slots (ps : PeerScript) (k : Nat) {s : State} (hline : s.env.linePending = [])
    (hst : s.env.txBuf = [] ∨ s.env.txStarted = true) :
    envAll (slotEvents ps k s.env.txBuf) s =
      { s with
        env := { s.env with
          txBuf := [], slots := s.env.slots ++ observedSlots ps k s.env.txBuf
          coll := s.env.coll || mismatch (observedSlots ps k s.env.txBuf) }
        bus := s.bus ++ (observedSlots ps k s.env.txBuf).map slotItem } := by
  generalize hb : s.env.txBuf = bs at hst
  induction bs generalizing s k with
  | nil =>
    have hcoll : (s.env.coll || mismatch (observedSlots ps k [])) = s.env.coll := Bool.or_false _
    have hslots : observedSlots ps k [] = [] := rfl
    have hnone : envAll (slotEvents ps k []) s = s := rfl
    rw [hnone, hcoll, hslots, List.append_nil, List.map_nil, List.append_nil, ← hb]
  | cons b rest ih =>
    have hst : s.env.txStarted = true := hst.resolve_left (by simp)
    have hcons : envAll (slotEvents ps k (b :: rest)) s =
        envAll (slotEvents ps (k + 1) rest) (envStep (.slot (wiredAnd b (ps.peer k))) s) := rfl
    have h1 : envStep (.slot (wiredAnd b (ps.peer k))) s =
        { s with
          env := { s.env with
            txBuf := rest, slots := s.env.slots ++ [(b, wiredAnd b (ps.peer k))]
            coll := s.env.coll || wiredAnd b (ps.peer k) != b }
          bus := s.bus ++ [.byte b (wiredAnd b (ps.peer k))] } := by
      simp only [envStep, envSlot, hst, hline, hb]
    rw [hcons, h1]
    refine Eq.trans (ih (k + 1) hline rfl (.inr hst)) ?_
    simp [observedSlots, mismatch, slotItem, Bool.or_assoc]

/-- The collaborators once the reference environment has served them: levels at 1, nothing owed, nothing waiting. -/
def Env.serve (ps : PeerScript) (e : Env) : Env :=
  { e with
    txIdle := true, rxBlocked := true, txbl := true, rxDisabled := true, txc := true, linePending := []
    txStarted := e.txStarted || e.linePending.contains .brk, txBuf := []
    slots := e.slots ++ observedSlots ps e.slots.length e.txBuf
    coll := e.coll || mismatch (observedSlots ps e.slots.length e.txBuf) }

/-- What goes over the line while the reference environment serves the collaborators. -/
def Env.outgoing (ps : PeerScript) (e : Env) : List BusItem :=
  e.linePending.map LineItem.onBus ++ (observedSlots ps e.slots.length e.txBuf).map slotItem

/-- What the engine step of a round finds. -/
def served (ps : PeerScript) (s : State) : State := envAll (refPrepare ps s) s

/-- What the engine step of a round finds: everything owed and waiting was served, and a poll gets its receive event. -/
theorem served_eq (ps : PeerScript) {s : State}
    (hst : s.env.txBuf = [] ∨ s.env.txStarted = true ∨ LineItem.brk ∈ s.env.linePending) :
    served ps s = envAll (if s.phase.polls then rxEvents ps s.env.tmoLeft else [])
      { s with env := s.env.serve ps, bus := s.bus ++ s.env.outgoing ps } := by
  have hlev : envAll [.txIdle true, .rxBlocked true, .txbl true, .rxDisabled true] s =
      { s with env := { s.env with txIdle := true, rxBlocked := true, txbl := true, rxDisabled := true } } := rfl
  have hline := envAll_lineDone
    { s with env := { s.env with txIdle := true, rxBlocked := true, txbl := true, rxDisabled := true } }
  have hslots := envAll_slots ps s.env.slots.length
    (s := { s with
      env := { s.env with
        txIdle := true, rxBlocked := true, txbl := true, rxDisabled := true, linePending := []
        txStarted := s.env.txStarted || s.env.linePending.contains .brk }
      bus := s.bus ++ s.env.linePending.map LineItem.onBus }) rfl (by
      obtain h | h | h := hst
      · exact .inl h
      · exact .inr (by simp [h])
      · exact .inr (by simp [h]))
  unfold served refPrepare
  rw [envAll_append, envAll_append, envAll_append, envAll_append, hlev, hline, hslots]
  congr 1
  simp [envAll, envStep, envTxComplete, Env.serve, Env.outgoing, List.append_assoc]

/-! ### Rounds in a row -/

/-- Rounds in a row, each from a state with BUSY = 1, with the script left at the end. -/
inductive Rounds : PeerScript → State → Nat → PeerScript → State → Prop
  | nil (ps : PeerScript) (s : State) : Rounds ps s 0 ps s
  | cons {ps ps' : PeerScript} {s u : State} {n : Nat} (hb : s.busy = true)
    (h : Rounds (ps.after s) (refRound ps s) n ps' u) : Rounds ps s (n + 1) ps' u

theorem Rounds.one {ps : PeerScript} {s u : State} (hb : s.busy = true) (h : refRound ps s = u) :
    Rounds ps s 1 (ps.after s) u :=
  .cons hb (h ▸ .nil _ _)

theorem Rounds.trans {ps ps' ps'' : PeerScript} {s t u : State} {m n : Nat} (h : Rounds ps s m ps' t)
    (h' : Rounds ps' t n ps'' u) : Rounds ps s (m + n) ps'' u := by
  induction h with
  | nil => rwa [Nat.zero_add]
  | cons hb _ ih => rw [Nat.add_right_comm]; exact .cons hb (ih h')

theorem Rounds.of_eq {ps ps' : PeerScript} {s u : State} {m n : Nat} (h : Rounds ps s m ps' u) (hn : m = n) :
    Rounds ps s n ps' u :=
  hn ▸ h

theorem Rounds.refRun_eq {ps ps' : PeerScript} {s u : State} {n : Nat} (h : Rounds ps s n ps' u) :
    refRun n ps s = u := by
  induction h with
  | nil => rfl
  | cons _ _ ih => exact ih

theorem Rounds.busy {ps ps' : PeerScript} {s u : State} {n : Nat} (h : Rounds ps s n ps' u) :
    ∀ k, k < n → (refRun k ps s).busy = true := by
  induction h with
  | nil => exact nofun
  | cons hb _ ih =>
    intro k hk
    cases k with
    | zero => exact hb
    | succ k => exact ih k (Nat.lt_of_succ_lt_succ hk)

/-- A phase that does not poll leaves the script as it is. -/
theorem PeerScript.after_of_not_polls (ps : PeerScript) {s : State} (h : s.phase.polls = false) : ps.after s = ps :=
  if_neg (by simp [h])

/-- One more round, of a phase that does not poll. -/
theorem Rounds.quiet {ps₀ ps : PeerScript} {s₀ s u : State} {n : Nat} (hr : Rounds ps₀ s₀ n ps s) (hb : s.busy = true)
    (hp : s.phase.polls = false) (h : refRound ps s = u) : Rounds ps₀ s₀ (n + 1) ps u := by
  have hone := hr.trans (.one hb h)
  rwa [ps.after_of_not_polls hp] at hone

end Sys2Proof.Machine
end

section
/-! Whole frames under the reference environment (10_state.md R31): the header, the response the master sends, a bare
header; TRANSMIT and SLEEP. -/

namespace Sys2Proof.Machine

/-! ### What is on the air -/

theorem observedSlots_append (ps : PeerScript) (k : Nat) (xs ys : List Byte) :
    observedSlots ps k (xs ++ ys) = observedSlots ps k xs ++ observedSlots ps (k + xs.length) ys := by
  induction xs generalizing k with
  | nil => rfl
  | cons x xs ih =>
    rw [List.cons_append, observedSlots, ih, observedSlots, List.length_cons, Nat.add_right_comm, ← Nat.add_assoc,
      List.cons_append]

theorem observedSlots_length (ps : PeerScript) (k : Nat) (xs : List Byte) :
    (observedSlots ps k xs).length = xs.length := by
  induction xs generalizing k with
  | nil => rfl
  | cons x xs ih => rw [observedSlots, List.length_cons, ih, List.length_cons]

theorem mismatch_append (xs ys : List (Byte × Byte)) : mismatch (xs ++ ys) = (mismatch xs || mismatch ys) :=
  List.any_append

/-- The collaborators once served, when `w` is what was written of the frame since its header began: every byte of it is
sent and seen through the bus. -/
def Env.onAir (ps : PeerScript) (w : List Byte) (e : Env) : Env :=
  { e with
    txIdle := true, rxBlocked := true, txbl := true, rxDisabled := true, txc := true, linePending := []
    txStarted := true, txBuf := [], slots := observedSlots ps 0 w, coll := mismatch (observedSlots ps 0 w) }

/-- The line after the bytes `w`, each seen through the bus. -/
def lineWith (ps : PeerScript) (line : List BusItem) (w : List Byte) : List BusItem :=
  line ++ (observedSlots ps 0 w).map slotItem

/-- The line once the reference environment serves the collaborators shows `line` and then the slots of `w`. -/
structure Airing (ps : PeerScript) (e : Env) (line : List BusItem) (w : List Byte) (env : Env) (bus : List BusItem) :
    Prop where
  canSend : env.txBuf = [] ∨ env.txStarted = true ∨ LineItem.brk ∈ env.linePending
  serve_eq : env.serve ps = e.onAir ps w
  bus_eq : bus ++ env.outgoing ps = lineWith ps line w

/-- Bytes written to served collaborators follow those already on the air. -/
theorem airing_write (ps : PeerScript) (e : Env) (line : List BusItem) (w bs : List Byte) (c : Bool) :
    Airing ps e line (w ++ bs) { e.onAir ps w with txBuf := bs, txc := c } (lineWith ps line w) where
  canSend := .inr (.inl rfl)
  serve_eq := by
    simp only [Env.serve, Env.onAir, observedSlots_append, observedSlots_length, mismatch_append, Bool.true_or,
      Nat.zero_add]
  bus_eq := by
    simp [Env.outgoing, Env.onAir, lineWith, observedSlots_append, observedSlots_length]

/-- Served collaborators stay so. -/
theorem airing_onAir (ps : PeerScript) (e : Env) (line : List BusItem) (w : List Byte) :
    Airing ps e line w (e.onAir ps w) (lineWith ps line w) := by
  have h := airing_write ps e line w [] true
  rwa [List.append_nil] at h

/-- Nothing sent, nothing waiting and nothing owed, as FLUSH leaves the collaborators (10_state.md R30 duty 1). -/
structure Env.Fresh (e : Env) : Prop where
  txBuf : e.txBuf = []
  slots : e.slots = []
  coll : e.coll = false
  linePending : e.linePending = []

theorem Env.fresh_frameStart (e : Env) : e.frameStart.Fresh := ⟨rfl, rfl, rfl, rfl⟩

/-- Collaborators with nothing to serve: the levels at 1. -/
def Env.ready (e : Env) : Env :=
  { e with txIdle := true, rxBlocked := true, txbl := true, rxDisabled := true, txc := true }

theorem Env.Fresh.ready {e : Env} (h : e.Fresh) : e.ready.Fresh := ⟨h.txBuf, h.slots, h.coll, h.linePending⟩

theorem Env.Fresh.serve {e : Env} (h : e.Fresh) (ps : PeerScript) : e.serve ps = e.ready := by
  simp [Env.serve, Env.ready, h.txBuf, h.slots, h.coll, h.linePending, observedSlots, mismatch]

theorem Env.Fresh.outgoing {e : Env} (h : e.Fresh) (ps : PeerScript) : e.outgoing ps = [] := by
  simp [Env.outgoing, h.txBuf, h.linePending, observedSlots]

/-- A wakeup pulse owed goes out (40_bit_timing.md R69). -/
theorem Env.Fresh.serve_wake {e : Env} (h : e.Fresh) (ps : PeerScript) :
    ({ e.ready with linePending := e.linePending ++ [.wake] } : Env).serve ps = e.ready := by
  simp [Env.serve, Env.ready, h.txBuf, h.slots, h.coll, h.linePending, observedSlots, mismatch]

theorem Env.Fresh.outgoing_wake {e : Env} (h : e.Fresh) (ps : PeerScript) :
    ({ e.ready with linePending := e.linePending ++ [.wake] } : Env).outgoing ps = [.wake] := by
  simp [Env.outgoing, Env.ready, h.txBuf, h.linePending, observedSlots, LineItem.onBus]

/-- The header written, with its break owed: SYNC and the PID go on the air after the break. -/
theorem airing_header (ps : PeerScript) {e : Env} (h : e.Fresh) (pid : Byte) (bus : List BusItem) :
    Airing ps e (bus ++ [.brk]) [Config.sync, pid]
      { e.ready with
        txBuf := e.txBuf ++ [Config.sync, pid], txc := false, linePending := e.linePending ++ [.brk] } bus where
  canSend := .inr (.inr (by simp))
  serve_eq := by
    simp [Env.serve, Env.ready, Env.onAir, h.txBuf, h.slots, h.coll, h.linePending]
  bus_eq := by
    simp [Env.outgoing, Env.ready, lineWith, h.txBuf, h.slots, h.linePending, LineItem.onBus]

/-! ### One round of each phase that does not poll -/

theorem refRound_eq (ps : PeerScript) (s : State) : refRound ps s = engineStep (served ps s) := rfl

theorem served_fresh (ps : PeerScript) {s : State} (hp : s.phase.polls = false) (hf : s.env.Fresh) :
    served ps s = { s with env := s.env.ready } := by
  rw [served_eq ps (.inl hf.txBuf), hf.serve, hf.outgoing, List.append_nil, hp]
  rfl

theorem served_wake (ps : PeerScript) {s : State} {e : Env} (hf : e.Fresh) (hp : s.phase.polls = false)
    (hs : s.env = { e.ready with linePending := e.linePending ++ [.wake] }) :
    served ps s = { s with env := e.ready, bus := s.bus ++ [.wake] } := by
  rw [served_eq ps (.inl (by rw [hs]; exact hf.txBuf)), hs, hf.serve_wake, hf.outgoing_wake, hp]
  rfl

theorem served_airing {ps : PeerScript} {s : State} {e : Env} {line : List BusItem} {w : List Byte}
    (hp : s.phase.polls = false) (h : Airing ps e line w s.env s.bus) :
    served ps s = { s with env := e.onAir ps w, bus := lineWith ps line w } := by
  rw [served_eq ps h.canSend, h.serve_eq, h.bus_eq, hp]
  rfl

/-- TX_ARM (42_transmit.md R87). -/
theorem arm_round (ps : PeerScript) {t : State} (hp : t.phase = .txArm) (hb : t.busy = true) (hf : t.env.Fresh) :
    Rounds ps t 1 ps { t with phase := if t.sleeping then .txWake else .txHdr, env := t.env.ready } := by
  refine .quiet (.nil ps t) hb (by rw [hp]; rfl) ?_
  rw [refRound_eq, served_fresh ps (by rw [hp]; rfl) hf, engineStep_txArm (by exact hp), engTxArm_eq rfl rfl]

/-- TX_WAKE (42_transmit.md R88). -/
theorem wake_round {ps ps₀ : PeerScript} {s s₀ : State} {n : Nat} (hr : Rounds ps₀ s₀ n ps s) (hp : s.phase = .txWake)
    (hb : s.busy = true) (hf : s.env.Fresh) :
    Rounds ps₀ s₀ (n + 1) ps
      { s with
        phase := .txHdr, sleeping := false, env := { s.env.ready with linePending := s.env.linePending ++ [.wake] }
        acts := s.acts ++ [.wakeupPulse] } := by
  refine hr.quiet hb (by rw [hp]; rfl) ?_
  rw [refRound_eq, served_fresh ps (by rw [hp]; rfl) hf, engineStep_txWake (by exact hp), engTxWake_eq]
  rfl

/-- TX_HDR writes the header (42_transmit.md R89). -/
theorem header_round {ps ps₀ : PeerScript} {s s₀ : State} {n : Nat} {e : Env} {bus : List BusItem}
    (hr : Rounds ps₀ s₀ n ps s) (hp : s.phase = .txHdr) (hb : s.busy = true) (hf : e.Fresh)
    (hs : served ps s = { s with env := e.ready, bus := bus }) :
    ∃ env acts,
      Rounds ps₀ s₀ (n + 1) ps
        { s with
          lastPid := s.latch.pid, phase := if s.latch.txdp then .txData else .txWaitc, env := env, bus := bus
          acts := acts } ∧
      Airing ps e (bus ++ [.brk]) [Config.sync, s.latch.pid] env bus := by
  refine ⟨_, s.acts ++ [.txWrite Config.sync, .txWrite s.latch.pid, .armBreak], hr.quiet hb (by rw [hp]; rfl) ?_,
    airing_header ps hf s.latch.pid bus⟩
  rw [refRound_eq, hs, engineStep_txHdr (by exact hp), engTxHdr_eq]
  rfl

/-- The line of a frame: a wakeup pulse if the bus slept, the break, the slots. -/
theorem lineWith_header (ps : PeerScript) (bus : List BusItem) (woken : Bool) (w : List Byte) :
    lineWith ps (bus ++ (if woken then [.wake] else []) ++ [.brk]) w = bus ++ lineOf woken (observedSlots ps 0 w) := by
  simp [lineWith, lineOf, slotItem, List.append_assoc]

/-- The rounds up to the header: TX_ARM, TX_WAKE if the bus sleeps, TX_HDR (42_transmit.md R87 to R89). -/
theorem header_rounds (ps : PeerScript) {t : State} (hp : t.phase = .txArm) (hb : t.busy = true) (hf : t.env.Fresh) :
    ∃ env bus acts,
      Rounds ps t (2 + t.sleeping.toNat) ps
        { t with
          sleeping := false, lastPid := t.latch.pid, phase := if t.latch.txdp then .txData else .txWaitc
          env := env, bus := bus, acts := acts } ∧
      Airing ps t.env (t.bus ++ (if t.sleeping then [.wake] else []) ++ [.brk]) [Config.sync, t.latch.pid] env bus := by
  have harm := arm_round ps hp hb hf
  cases hs : t.sleeping
  · rw [hs] at harm
    obtain ⟨env, acts, hrun, hair⟩ := header_round harm rfl hb hf (served_fresh ps rfl hf.ready)
    exact ⟨env, t.bus, acts, hrun, by rwa [if_neg nofun, List.append_nil]⟩
  · rw [hs] at harm
    have hwake := wake_round harm rfl hb hf.ready
    obtain ⟨env, acts, hrun, hair⟩ := header_round hwake rfl hb hf (served_wake ps hf rfl rfl)
    refine ⟨env, t.bus ++ [.wake], acts, ?_, ?_⟩
    · exact hrun
    · rw [if_pos rfl]
      exact hair

/-! ### The payload in the order of its bytes -/

/-- The payload from byte `k` on begins with the byte the engine sends next. -/
theorem payload_drop_take_succ (op : FrameOp) (d : Vector Byte 8) {k : Nat} (hk : k < 8) (m : Nat) :
    ((payload op d).drop k).take (m + 1) = payloadByte op d k :: ((payload op d).drop (k + 1)).take m := by
  have hl : k < (payload op d).length := by rw [payload_length]; exact hk
  rw [List.drop_eq_getElem_cons hl, List.take_succ_cons, payloadByte, List.getD_eq_getElem _ _ hl]

/-! ### From the header to TX_COLL -/

section
variable {ps ps₀ : PeerScript} {e : Env} {line : List BusItem} {w : List Byte} {s s₀ : State} {n : Nat}

/-- TX_DATA writes the next byte (42_transmit.md R90). -/
theorem data_round (hr : Rounds ps₀ s₀ n ps s) (hp : s.phase = .txData) (hb : s.busy = true)
    (h : Airing ps e line w s.env s.bus) :
    ∃ env bus acts,
      Rounds ps₀ s₀ (n + 1) ps
        { s with
          idx := s.idx + 1, phase := if s.idx + 1 = s.latch.len then .txChk else .txData
          env := env, bus := bus, acts := acts } ∧
      Airing ps e line (w ++ [payloadByte s.latch.op s.data s.idx.toNat]) env bus := by
  refine ⟨_, _, s.acts ++ [.txWrite (payloadByte s.latch.op s.data s.idx.toNat)], hr.quiet hb (by rw [hp]; rfl) ?_,
    airing_write ps e line w _ false⟩
  rw [refRound_eq, served_airing (by rw [hp]; rfl) h, engineStep_txData (by exact hp), engTxData_eq rfl]
  rfl

/-- TX_CHK writes the checksum byte (42_transmit.md R91). -/
theorem checksum_round (hr : Rounds ps₀ s₀ n ps s) (hp : s.phase = .txChk) (hb : s.busy = true)
    (h : Airing ps e line w s.env s.bus) :
    ∃ env bus acts,
      Rounds ps₀ s₀ (n + 1) ps
        { s with lastChk := s.latch.chkTx, phase := .txWaitc, env := env, bus := bus, acts := acts } ∧
      Airing ps e line (w ++ [s.latch.chkTx]) env bus := by
  refine ⟨_, _, s.acts ++ [.txWrite s.latch.chkTx], hr.quiet hb (by rw [hp]; rfl) ?_, airing_write ps e line w _ false⟩
  rw [refRound_eq, served_airing (by rw [hp]; rfl) h, engineStep_txChk (by exact hp), engTxChk_eq rfl]
  rfl

/-- TX_WAITC after a response of the master disables the receiver (42_transmit.md R92). -/
theorem waitc_response_round (hr : Rounds ps₀ s₀ n ps s) (hp : s.phase = .txWaitc) (hb : s.busy = true)
    (hd : s.latch.txdp = true)
    (h : Airing ps e line w s.env s.bus) :
    ∃ env bus acts,
      Rounds ps₀ s₀ (n + 1) ps { s with phase := .txRxoffWait, env := env, bus := bus, acts := acts } ∧
      Airing ps { e with rxEnabled := false } line w env bus := by
  refine ⟨_, _, s.acts ++ [.rxDisable], hr.quiet hb (by rw [hp]; rfl) ?_, airing_onAir ps _ line w⟩
  rw [refRound_eq, served_airing (by rw [hp]; rfl) h, engineStep_txWaitc (by exact hp),
    engTxWaitc_response_eq rfl (by exact hd)]
  rfl

/-- TX_WAITC after a bare header unblocks the receive path (42_transmit.md R92). -/
theorem waitc_bare_round (hr : Rounds ps₀ s₀ n ps s) (hp : s.phase = .txWaitc) (hb : s.busy = true)
    (hd : s.latch.txdp = false)
    (h : Airing ps e line w s.env s.bus) :
    ∃ env bus acts,
      Rounds ps₀ s₀ (n + 1) ps { s with phase := .txColl, env := env, bus := bus, acts := acts } ∧
      Airing ps { e with rxBlock := false } line w env bus := by
  refine ⟨_, _, s.acts ++ [.rxBlock false], hr.quiet hb (by rw [hp]; rfl) ?_, airing_onAir ps _ line w⟩
  rw [refRound_eq, served_airing (by rw [hp]; rfl) h, engineStep_txWaitc (by exact hp),
    engTxWaitc_bare_eq rfl (by exact hd)]
  rfl

/-- TX_RXOFF_WAIT (42_transmit.md R93). -/
theorem rxoff_round (hr : Rounds ps₀ s₀ n ps s) (hp : s.phase = .txRxoffWait) (hb : s.busy = true)
    (h : Airing ps e line w s.env s.bus) :
    ∃ env bus, Rounds ps₀ s₀ (n + 1) ps { s with phase := .txColl, env := env, bus := bus } ∧
      Airing ps e line w env bus := by
  refine ⟨_, _, hr.quiet hb (by rw [hp]; rfl) ?_, airing_onAir ps _ line w⟩
  rw [refRound_eq, served_airing (by rw [hp]; rfl) h, engineStep_txRxoffWait (by exact hp), engTxRxoffWait_eq rfl]

/-- TX_COLL ends a TRANSMIT with the verdict of its slots (42_transmit.md R94). -/
theorem coll_transmit_round (hr : Rounds ps₀ s₀ n ps s) (hp : s.phase = .txColl) (hb : s.busy = true)
    (hop : s.latch.op = .tx)
    (h : Airing ps e line w s.env s.bus) :
    Rounds ps₀ s₀ (n + 1) ps
      { s with
        env := e.onAir ps w, bus := lineWith ps line w, busy := false, phase := .idle
        cnt := if mismatch (observedSlots ps 0 w) then s.cnt.incMConf else s.cnt
        result := if mismatch (observedSlots ps 0 w) then .abort else .ok } := by
  refine hr.quiet hb (by rw [hp]; rfl) ?_
  rw [refRound_eq, served_airing (by rw [hp]; rfl) h, engineStep_txColl (by exact hp),
    engTxColl_transmit_eq (by exact hop)]
  rfl

/-- TX_COLL ends a sleep frame with the verdict of its slots, and the bus sleeps (44_counters_sleep.md R116). -/
theorem coll_sleep_round (hr : Rounds ps₀ s₀ n ps s) (hp : s.phase = .txColl) (hb : s.busy = true)
    (hop : s.latch.op = .sl)
    (h : Airing ps e line w s.env s.bus) :
    Rounds ps₀ s₀ (n + 1) ps
      { s with
        env := e.onAir ps w, bus := lineWith ps line w, busy := false, phase := .idle, sleeping := true
        cnt := if mismatch (observedSlots ps 0 w) then s.cnt.incMConf else s.cnt
        result := if mismatch (observedSlots ps 0 w) then .abort else .ok } := by
  refine hr.quiet hb (by rw [hp]; rfl) ?_
  rw [refRound_eq, served_airing (by rw [hp]; rfl) h, engineStep_txColl (by exact hp), engTxColl_sleep_eq (by exact hop)]
  rfl

end

/-- TX_DATA, one byte a round, to the last (42_transmit.md R90). -/
theorem data_rounds {ps ps₀ : PeerScript} {s₀ : State} {e : Env} {line : List BusItem} (m : Nat) {n : Nat}
    {w : List Byte}
    {s : State} (hr : Rounds ps₀ s₀ n ps s) (hp : s.phase = .txData) (hb : s.busy = true)
    (hm : s.idx.toNat + (m + 1) = s.latch.len.toNat) (hl : s.latch.len.toNat ≤ 8)
    (h : Airing ps e line w s.env s.bus) :
    ∃ env bus acts,
      Rounds ps₀ s₀ (n + (m + 1)) ps
        { s with idx := s.latch.len, phase := .txChk, env := env, bus := bus, acts := acts } ∧
      Airing ps e line (w ++ ((payload s.latch.op s.data).drop s.idx.toNat).take (m + 1)) env bus := by
  induction m generalizing w s n with
  | zero =>
    obtain ⟨env, bus, acts, hone, hair⟩ := data_round hr hp hb h
    have hi : (s.idx + 1).toNat = s.idx.toNat + 1 := toNat_succ_idx (n := s.latch.len) (by omega)
    have hlast : s.idx + 1 = s.latch.len := BitVec.eq_of_toNat_eq (by omega)
    rw [if_pos hlast, hlast] at hone
    rw [payload_drop_take_succ _ _ (by omega)]
    exact ⟨env, bus, acts, hone, hair⟩
  | succ m ih =>
    obtain ⟨env, bus, acts, hone, hair⟩ := data_round hr hp hb h
    have hi : (s.idx + 1).toNat = s.idx.toNat + 1 := toNat_succ_idx (n := s.latch.len) (by omega)
    have hnext : s.idx + 1 ≠ s.latch.len := fun heq => by
      have := congrArg BitVec.toNat heq
      omega
    have hrem : (s.idx + 1).toNat + (m + 1) = s.latch.len.toNat := by omega
    rw [if_neg hnext] at hone
    obtain ⟨env, bus, acts, hrest, hair⟩ := ih hone rfl hb hrem hl hair
    refine ⟨env, bus, acts, ?_, ?_⟩
    · rw [Nat.add_comm (m + 1) 1, ← Nat.add_assoc]
      exact hrest
    · rw [payload_drop_take_succ _ _ (by omega), ← hi]
      simpa only [List.append_assoc, List.cons_append, List.nil_append] using hair

/-- A frame with a response of the master, from TX_ARM to TX_COLL (42_transmit.md R87 to R93): everything the engine
writes goes on the air, and the receiver is off at the end. -/
theorem response_rounds (ps : PeerScript) {t : State} (hp : t.phase = .txArm) (hb : t.busy = true) (hf : t.env.Fresh)
    (hi : t.idx = 0) (hd : t.latch.txdp = true) (hlen : t.latch.len ≠ 0) (hl : t.latch.len.toNat ≤ 8) :
    ∃ env bus acts,
      Rounds ps t (t.latch.len.toNat + 5 + t.sleeping.toNat) ps
        { t with
          sleeping := false, lastPid := t.latch.pid, idx := t.latch.len, lastChk := t.latch.chkTx, phase := .txColl
          env := env, bus := bus, acts := acts } ∧
      Airing ps { t.env with rxEnabled := false } (t.bus ++ (if t.sleeping then [.wake] else []) ++ [.brk])
        (frameBytes t.latch t.data) env bus := by
  obtain ⟨m, hm⟩ : ∃ m, t.latch.len.toNat = m + 1 := Nat.exists_eq_succ_of_ne_zero fun h0 =>
    hlen (BitVec.eq_of_toNat_eq h0)
  have hbytes : [Config.sync, t.latch.pid] ++ ((payload t.latch.op t.data).drop t.idx.toNat).take (m + 1) ++
      [t.latch.chkTx] = frameBytes t.latch t.data := by
    rw [frameBytes_response hd, hm, hi]
    rfl
  obtain ⟨env, bus, acts, hrun, hair⟩ := header_rounds ps hp hb hf
  rw [if_pos hd] at hrun
  obtain ⟨env, bus, acts, hrun, hair⟩ := data_rounds m hrun rfl hb (by rw [hi, hm]; exact Nat.zero_add _) hl hair
  obtain ⟨env, bus, acts, hrun, hair⟩ := checksum_round hrun rfl hb hair
  obtain ⟨env, bus, acts, hrun, hair⟩ := waitc_response_round hrun rfl hb hd hair
  obtain ⟨env, bus, hrun, hair⟩ := rxoff_round hrun rfl hb hair
  refine ⟨env, bus, acts, ?_, hbytes ▸ hair⟩
  rw [show t.latch.len.toNat + 5 + t.sleeping.toNat = 2 + t.sleeping.toNat + (m + 1) + 1 + 1 + 1 by omega]
  exact hrun

/-- A bare header, from TX_ARM to TX_COLL (42_transmit.md R87 to R92): the receive path is unblocked at the end. -/
theorem bare_rounds (ps : PeerScript) {t : State} (hp : t.phase = .txArm) (hb : t.busy = true) (hf : t.env.Fresh)
    (hd : t.latch.txdp = false) :
    ∃ env bus acts,
      Rounds ps t (3 + t.sleeping.toNat) ps
        { t with
          sleeping := false, lastPid := t.latch.pid, phase := .txColl, env := env, bus := bus, acts := acts } ∧
      Airing ps { t.env with rxBlock := false } (t.bus ++ (if t.sleeping then [.wake] else []) ++ [.brk])
        [Config.sync, t.latch.pid] env bus := by
  obtain ⟨env, bus, acts, hrun, hair⟩ := header_rounds ps hp hb hf
  rw [if_neg (by simp [hd])] at hrun
  obtain ⟨env, bus, acts, hrun, hair⟩ := waitc_bare_round hrun rfl hb hd hair
  refine ⟨env, bus, acts, ?_, hair⟩
  rw [show 3 + t.sleeping.toNat = 2 + t.sleeping.toNat + 1 by omega]
  exact hrun

/-! ### TRANSMIT and SLEEP -/

/-- Parameters that pass the check (42_transmit.md R85). -/
theorem checkParams_eq_ok {id : FrameId} {dp : Bool} {len : Nat} (hid : id.toNat < 0x3E) (hlen : len ≤ 8)
    (hdp : dp = true ↔ len ≠ 0) : checkParams id dp len = .ok := by
  have h1 : ¬ id.toNat ≥ 0x3E := by omega
  have h2 : (dp != decide (len ≠ 0)) = false := by
    rw [bne_eq_false_iff_eq, Bool.eq_iff_iff, decide_eq_true_iff]
    exact hdp
  have h3 : ¬ len > 8 := by omega
  simp only [checkParams, h1, h2, h3, if_false, Bool.false_eq_true]

/-- An accepted command runs (30_encoding.md R49). -/
theorem accept_run {needsInit : Bool} (i : Instr) (run : State → State) {s : State} (hb : s.busy = false)
    (hi : s.initDone = true) : accept needsInit i run s = .next (run (storeCmd i s)) := by
  simp [accept, hb, hi]

theorem exec_transmit_starts {f : CmdFields} {s : State} (hb : s.busy = false) (hi : s.initDone = true)
    (hf : checkParams f.id f.dp f.len = .ok) :
    exec (.transmit f) s =
      .next (startFrame .tx f.id f.dp (BitVec.ofNat 4 f.len) f.enh f.inj (storeCmd (.transmit f) s)) := by
  have hrun : runTransmit f (storeCmd (.transmit f) s) =
      startFrame .tx f.id f.dp (BitVec.ofNat 4 f.len) f.enh f.inj (storeCmd (.transmit f) s) := by
    simp only [runTransmit, hf]
  exact (accept_run _ _ hb hi).trans (congrArg _ hrun)

theorem exec_sleep_starts {f : CmdFields} {s : State} (hb : s.busy = false) (hi : s.initDone = true)
    (hf : s.sleeping = false ∨ f.force = true) :
    exec (.sleep f) s = .next (startFrame .sl Config.sleepId true 8#4 false false (storeCmd (.sleep f) s)) := by
  have hrun : runSleep f (storeCmd (.sleep f) s) =
      startFrame .sl Config.sleepId true 8#4 false false (storeCmd (.sleep f) s) := by
    obtain h | h := hf <;> simp [runSleep, h]
  exact (accept_run _ _ hb hi).trans (congrArg _ hrun)

/-- The collaborators after a frame's start have nothing to serve. -/
theorem startFrame_fresh (op : FrameOp) (id : FrameId) (txdp : Bool) (len : BitVec 4) (enh inj : Bool) (s : State) :
    (startFrame op id txdp len enh inj s).env.Fresh := by
  rw [startFrame_eq]
  exact s.env.fresh_frameStart

/-- The bytes of a TRANSMIT with a response (42_transmit.md R84, R86). -/
theorem response_bytes {l : Latch} {d : Vector Byte 8} {n : Nat} (hn : l.len.toNat = n) (hd : l.txdp = true)
    (hop : l.op = .tx) : frameBytes l d = [Config.sync, l.pid] ++ (d.toList.take n ++ [l.chkTx]) := by
  rw [frameBytes_response hd, hn, hop, List.append_assoc]
  rfl

/-- Settles O56: the rounds of the frame with a response or of the bare header, then TX_COLL. -/
theorem transmitRun : Obligations.TransmitRun := by
  unfold Obligations.TransmitRun
  intro ps f s hb hi hid hlen hdp
  refine ⟨_, exec_transmit_starts hb hi (checkParams_eq_ok hid hlen hdp), ?_⟩
  have hl : (BitVec.ofNat 4 f.len).toNat = f.len := by rw [BitVec.toNat_ofNat]; omega
  have hfresh := startFrame_fresh .tx f.id f.dp (BitVec.ofNat 4 f.len) f.enh f.inj (storeCmd (.transmit f) s)
  cases hd : f.dp <;> rw [hd] at hfresh
  · obtain ⟨env, bus, acts, hrun, hair⟩ := bare_rounds ps rfl rfl hfresh rfl
    have hrun := coll_transmit_round hrun rfl rfl rfl hair
    rw [lineWith_header] at hrun
    intro sent seen n u
    have hrun := hrun.of_eq (n := n) (Nat.add_right_comm 3 _ 1)
    refine ⟨hrun.busy, ?_⟩
    rw [show u = _ from hrun.refRun_eq]
    exact ⟨rfl, rfl, rfl, rfl, rfl, rfl, rfl, rfl, rfl, rfl, rfl, fun _ => rfl⟩
  · have hne : f.len ≠ 0 := hdp.mp hd
    have hlen0 : BitVec.ofNat 4 f.len ≠ 0 := fun h0 => hne (by rw [← hl, h0]; rfl)
    obtain ⟨env, bus, acts, hrun, hair⟩ := response_rounds ps rfl rfl hfresh rfl rfl hlen0 (hl.trans_le hlen)
    rw [response_bytes hl rfl rfl] at hair
    have hrun := coll_transmit_round hrun rfl rfl rfl hair
    rw [lineWith_header] at hrun
    intro sent seen n u
    have hrun := hrun.of_eq (n := n) (by
      change (BitVec.ofNat 4 f.len).toNat + 5 + s.sleeping.toNat + 1 = f.len + 6 + s.sleeping.toNat
      omega)
    refine ⟨hrun.busy, ?_⟩
    rw [show u = _ from hrun.refRun_eq]
    exact ⟨rfl, rfl, rfl, rfl, rfl, rfl, rfl, rfl, rfl, rfl, rfl, nofun⟩

/-- The latched command of a sleep frame does not depend on DATA (44_counters_sleep.md R115). -/
theorem latchFrame_sleep (d : Vector Byte 8) :
    latchFrame .sl Config.sleepId true 8#4 false false d =
      { op := .sl, id := Config.sleepId, txdp := true, len := 8#4, enhEff := false, inj := false, pid := 0x3C#8
        chkTx := 0x00#8 } := by
  have hany : latchFrame .sl Config.sleepId true 8#4 false false d =
      latchFrame .sl Config.sleepId true 8#4 false false (Vector.replicate 8 0) := rfl
  rw [hany]
  decide

/-- The sleep frame's bytes (44_counters_sleep.md R115). -/
theorem sleep_bytes (d : Vector Byte 8) :
    frameBytes (latchFrame .sl Config.sleepId true 8#4 false false d) d =
      [0x55#8, 0x3C#8, 0x00#8, 0xFF#8, 0xFF#8, 0xFF#8, 0xFF#8, 0xFF#8, 0xFF#8, 0xFF#8, 0x00#8] := by
  rw [latchFrame_sleep]
  rfl

/-- Settles O57: the rounds of a frame with a response, then TX_COLL. -/
theorem sleepRun : Obligations.SleepRun := by
  unfold Obligations.SleepRun
  intro ps f s hb hi hf
  refine ⟨_, exec_sleep_starts hb hi hf, ?_⟩
  have hlen : (8#4 : BitVec 4) ≠ 0 := by decide
  obtain ⟨env, bus, acts, hrun, hair⟩ := response_rounds ps rfl rfl
    (startFrame_fresh .sl Config.sleepId true 8#4 false false (storeCmd (.sleep f) s)) rfl rfl hlen (Nat.le_refl 8)
  have hrun := coll_sleep_round hrun rfl rfl rfl (sleep_bytes s.data ▸ hair)
  rw [lineWith_header] at hrun
  intro seen n u
  have hrun := hrun.of_eq (n := n) (Nat.add_right_comm 13 _ 1)
  refine ⟨hrun.busy, ?_⟩
  rw [show u = _ from hrun.refRun_eq]
  exact ⟨rfl, rfl, rfl, rfl, rfl, rfl, rfl, congrArg Latch.chkTx (latchFrame_sleep s.data), rfl⟩

end Sys2Proof.Machine
end

section
/-! REQUEST under the reference environment (10_state.md R31): the verdict on the header, the response byte by byte, the
ways it ends (43_request.md R102 to R111). -/

namespace Sys2Proof.Machine

/-! ### Rounds that poll -/

theorem observedSlots_rx (ps : PeerScript) (r : List RxEvent) (k : Nat) (w : List Byte) :
    observedSlots { ps with rx := r } k w = observedSlots ps k w := by
  induction w generalizing k with
  | nil => rfl
  | cons b w ih => rw [observedSlots, observedSlots, ih]; rfl

/-- What is on the air does not depend on what is still to be received. -/
theorem Airing.withRx {ps : PeerScript} {e env : Env} {line bus : List BusItem} {w : List Byte}
    (h : Airing ps e line w env bus) (r : List RxEvent) : Airing { ps with rx := r } e line w env bus where
  canSend := h.canSend
  serve_eq := by
    have hs := h.serve_eq
    simp only [Env.serve, Env.onAir, observedSlots_rx] at hs ⊢
    exact hs
  bus_eq := by
    have hl := h.bus_eq
    simp only [Env.outgoing, lineWith, observedSlots_rx] at hl ⊢
    exact hl

/-- One more round, of a phase that polls: the script loses its head. -/
theorem Rounds.polled {ps₀ ps : PeerScript} {s₀ s u : State} {n : Nat} {rest : List RxEvent}
    (hr : Rounds ps₀ s₀ n ps s) (hb : s.busy = true) (hp : s.phase.polls = true) (hrx : ps.rx.tail = rest)
    (h : refRound ps s = u) : Rounds ps₀ s₀ (n + 1) { ps with rx := rest } u := by
  have hone := hr.trans (.one hb h)
  rw [PeerScript.after, if_pos hp, hrx] at hone
  exact hone

/-- The collaborators of a REQUEST that listens: nothing received, no error, the timer running. -/
structure Env.Listening (e : Env) : Prop where
  rxFifo : e.rxFifo = []
  rxBlock : e.rxBlock = false
  ferr : e.ferr = false
  ovf : e.ovf = false
  tmoRunning : e.tmoRunning = true
  tmoUf : e.tmoUf = false
  tmoLeft : 1 ≤ e.tmoLeft

section
variable {ps ps₀ : PeerScript} {e : Env} {line : List BusItem} {w : List Byte} {s s₀ : State} {n : Nat}

theorem served_poll (hp : s.phase.polls = true) (h : Airing ps e line w s.env s.bus) :
    served ps s =
      envAll (rxEvents ps e.tmoLeft) { s with env := e.onAir ps w, bus := lineWith ps line w } := by
  have hleft : (s.env.serve ps).tmoLeft = (e.onAir ps w).tmoLeft := by rw [h.serve_eq]
  have hleft : s.env.tmoLeft = e.tmoLeft := hleft
  rw [served_eq ps h.canSend, h.serve_eq, h.bus_eq, if_pos hp, hleft]

/-- A byte of the script arrives (10_state.md R31). -/
theorem served_byte (hp : s.phase.polls = true) (h : Airing ps e line w s.env s.bus) (hl : e.Listening) {b : Byte}
    {rest : List RxEvent} (hrx : ps.rx = .byte b :: rest) :
    served ps s =
      { s with env := ({ e with rxFifo := [b] } : Env).onAir ps w, bus := lineWith ps line w } := by
  have hev : rxEvents ps e.tmoLeft = [.rxByte b] := by rw [rxEvents, hrx]
  rw [served_poll hp h, hev]
  refine (if_neg (by simp [Env.onAir, hl.rxBlock])).trans ?_
  simp [Env.onAir, hl.rxFifo]

theorem poll_byte (hl : e.Listening) (b : Byte) : poll (({ e with rxFifo := [b] } : Env).onAir ps w) = .byte b := by
  simp [poll, Env.onAir, hl.tmoUf, hl.ferr, hl.ovf]

/-- Once the byte is popped the collaborators listen again. -/
theorem popped (hl : e.Listening) (b : Byte) :
    { ({ e with rxFifo := [b] } : Env).onAir ps w with rxFifo := [b].tail } = e.onAir ps w := by
  simp [Env.onAir, hl.rxFifo]

/-- RQ_DATA stores the byte that arrives (43_request.md R104). -/
theorem receive_round (hr : Rounds ps₀ s₀ n ps s) (hp : s.phase = .rqData) (hb : s.busy = true) (hl : e.Listening)
    {b : Byte} {rest : List RxEvent} (hrx : ps.rx = .byte b :: rest) (h : Airing ps e line w s.env s.bus) :
    ∃ env bus acts,
      Rounds ps₀ s₀ (n + 1) { ps with rx := rest }
        { s with
          data := setDataByte s.idx.toNat b s.data, sum := acc s.sum b, idx := s.idx + 1, rxCount := s.idx + 1
          phase := if s.idx + 1 = s.latch.len then .rqChk else .rqData, env := env, bus := bus, acts := acts } ∧
      Airing { ps with rx := rest } e line w env bus := by
  have hpoll : s.phase.polls = true := by rw [hp]; rfl
  refine ⟨_, _, s.acts ++ [.rxPop], hr.polled hb hpoll (by rw [hrx]; rfl) ?_, (airing_onAir ps e line w).withRx rest⟩
  rw [refRound_eq, served_byte hpoll h hl hrx, engineStep_rqData_byte (by exact hp) (poll_byte hl b), receiveData_eq,
    ← popped hl b]
  rfl

/-- RQ_CHK judges the checksum byte that arrives (43_request.md R105). -/
theorem verdict_round (hr : Rounds ps₀ s₀ n ps s) (hp : s.phase = .rqChk) (hb : s.busy = true) (hl : e.Listening)
    {c : Byte} {rest : List RxEvent} (hrx : ps.rx = .byte c :: rest) (h : Airing ps e line w s.env s.bus) :
    ∃ env bus acts,
      Rounds ps₀ s₀ (n + 1) { ps with rx := rest }
        { s with
          lastChk := c, sum := acc s.sum c, phase := .rqClean
          cnt := if acc s.sum c = 0xFF#8 then s.cnt else s.cnt.incMChk
          pend := if acc s.sum c = 0xFF#8 then .ok else .io, env := env, bus := bus, acts := acts } ∧
      Airing { ps with rx := rest } e line w env bus := by
  have hpoll : s.phase.polls = true := by rw [hp]; rfl
  refine ⟨_, _, s.acts ++ [.rxPop], hr.polled hb hpoll (by rw [hrx]; rfl) ?_, (airing_onAir ps e line w).withRx rest⟩
  rw [refRound_eq, served_byte hpoll h hl hrx, engineStep_rqChk_byte (by exact hp) (poll_byte hl c),
    receiveChecksum_eq, ← popped hl c]
  rfl

/-- A frame error breaks the response off (43_request.md R104, R105). -/
theorem frameError_round (hr : Rounds ps₀ s₀ n ps s) (hp : s.phase = .rqData ∨ s.phase = .rqChk) (hb : s.busy = true)
    (hl : e.Listening) {rest : List RxEvent} (hrx : ps.rx = .frameError :: rest) (h : Airing ps e line w s.env s.bus) :
    ∃ env bus,
      Rounds ps₀ s₀ (n + 1) { ps with rx := rest }
        { s with cnt := s.cnt.incMGen, pend := .io, phase := .rqClean, env := env, bus := bus } ∧
      Airing { ps with rx := rest } { e with ferr := true } line w env bus := by
  have hpoll : s.phase.polls = true := by obtain hp | hp := hp <;> rw [hp] <;> rfl
  have hev : rxEvents ps e.tmoLeft = [.ferr true] := by rw [rxEvents, hrx]
  have herr : poll (({ e with ferr := true } : Env).onAir ps w) = .err := by simp [poll, Env.onAir, hl.tmoUf]
  refine ⟨_, _, hr.polled hb hpoll (by rw [hrx]; rfl) ?_, (airing_onAir ps _ line w).withRx rest⟩
  rw [refRound_eq, served_poll hpoll h, hev]
  exact engineStep_poll_error (s := { s with
    env := ({ e with ferr := true } : Env).onAir ps w, bus := lineWith ps line w }) hp herr

/-- The underflow of the timer breaks the response off, be it in the script or at its end (43_request.md R104, R105). -/
theorem timeout_round (hr : Rounds ps₀ s₀ n ps s) (hp : s.phase = .rqData ∨ s.phase = .rqChk) (hb : s.busy = true)
    (hl : e.Listening) {rest : List RxEvent} (hrx : ps.rx = .timeout :: rest ∨ ps.rx = [] ∧ rest = [])
    (h : Airing ps e line w s.env s.bus) :
    ∃ env bus,
      Rounds ps₀ s₀ (n + 1) { ps with rx := rest }
        { s with cnt := s.cnt.incMTmo, pend := .timeout, phase := .rqClean, env := env, bus := bus } ∧
      Airing { ps with rx := rest } { e with tmoLeft := 0, tmoUf := true } line w env bus := by
  have hpoll : s.phase.polls = true := by obtain hp | hp := hp <;> rw [hp] <;> rfl
  have hev : rxEvents ps e.tmoLeft = List.replicate e.tmoLeft .tmoTick := by
    obtain hrx | ⟨hrx, -⟩ := hrx <;> rw [rxEvents, hrx]
  have htail : ps.rx.tail = rest := by
    obtain hrx | ⟨hrx, hrest⟩ := hrx
    · rw [hrx]; rfl
    · rw [hrx, hrest]; rfl
  have htmo : poll (({ e with tmoLeft := 0, tmoUf := true } : Env).onAir ps w) = .tmo := rfl
  have hticks : envAll (List.replicate e.tmoLeft .tmoTick)
      { s with env := e.onAir ps w, bus := lineWith ps line w } =
      { s with
        env := ({ e with tmoLeft := 0, tmoUf := true } : Env).onAir ps w, bus := lineWith ps line w } := by
    refine (envAll_ticks e.tmoLeft hl.tmoRunning).trans ?_
    simp [Env.onAir, hl.tmoLeft]
  refine ⟨_, _, hr.polled hb hpoll htail ?_, (airing_onAir ps _ line w).withRx rest⟩
  rw [refRound_eq, served_poll hpoll h, hev, hticks]
  exact engineStep_poll_timeout (s := { s with
    env := ({ e with tmoLeft := 0, tmoUf := true } : Env).onAir ps w, bus := lineWith ps line w }) hp htmo

/-! ### The header's verdict and the end -/

/-- TX_COLL of a REQUEST whose header was seen as sent: the response is awaited (43_request.md R102). -/
theorem coll_clear_round (hr : Rounds ps₀ s₀ n ps s) (hp : s.phase = .txColl) (hb : s.busy = true)
    (hop : s.latch.op = .rq) (hm : mismatch (observedSlots ps 0 w) = false) (h : Airing ps e line w s.env s.bus) :
    ∃ env bus,
      Rounds ps₀ s₀ (n + 1) ps
        { s with idx := 0, phase := if s.latch.len ≠ 0 then .rqData else .rqChk, env := env, bus := bus } ∧
      Airing ps e line w env bus := by
  refine ⟨_, _, hr.quiet hb (by rw [hp]; rfl) ?_, airing_onAir ps e line w⟩
  rw [refRound_eq, served_airing (by rw [hp]; rfl) h, engineStep_txColl (by exact hp)]
  exact engTxColl_clear_eq hop hm

/-- TX_COLL of a REQUEST whose header collided (43_request.md R102). -/
theorem coll_collided_round (hr : Rounds ps₀ s₀ n ps s) (hp : s.phase = .txColl) (hb : s.busy = true)
    (hop : s.latch.op = .rq) (hm : mismatch (observedSlots ps 0 w) = true) (h : Airing ps e line w s.env s.bus) :
    ∃ env bus,
      Rounds ps₀ s₀ (n + 1) ps
        { s with cnt := s.cnt.incMConf, pend := .abort, phase := .rqClean, env := env, bus := bus } ∧
      Airing ps e line w env bus := by
  refine ⟨_, _, hr.quiet hb (by rw [hp]; rfl) ?_, airing_onAir ps e line w⟩
  rw [refRound_eq, served_airing (by rw [hp]; rfl) h, engineStep_txColl (by exact hp)]
  exact engTxColl_collided_eq hop hm

/-- RQ_CLEAN and RQ_CLEAN_WAIT: the timer stopped, the receiver off, the pending result reported (43_request.md R106,
R107). -/
theorem clean_rounds (hr : Rounds ps₀ s₀ n ps s) (hp : s.phase = .rqClean) (hb : s.busy = true)
    (h : Airing ps e line w s.env s.bus) :
    ∃ acts,
      Rounds ps₀ s₀ (n + 2) ps
        { s with
          result := s.pend, busy := false, phase := .idle
          env := ({ e with tmoRunning := false, rxEnabled := false } : Env).onAir ps w, bus := lineWith ps line w
          acts := acts } := by
  have hclean : Rounds ps₀ s₀ (n + 1) ps
      { s with
        phase := .rqCleanWait, env := ({ e with tmoRunning := false, rxEnabled := false } : Env).onAir ps w
        bus := lineWith ps line w, acts := s.acts ++ [.tmoStop, .rxDisable] } := by
    refine hr.quiet hb (by rw [hp]; rfl) ?_
    rw [refRound_eq, served_airing (by rw [hp]; rfl) h, engineStep_rqClean (by exact hp), engRqClean_eq]
    rfl
  refine ⟨s.acts ++ [.tmoStop, .rxDisable], hclean.quiet hb rfl ?_⟩
  rw [refRound_eq, served_airing rfl (airing_onAir ps _ line w), engineStep_rqCleanWait rfl, engRqCleanWait_eq rfl]

end

/-! ### The response byte by byte -/

/-- Bytes stored in the buffer from index `k` on. -/
def storeBytes : Nat → List Byte → Vector Byte 8 → Vector Byte 8
  | _, [], d => d
  | k, b :: r, d => storeBytes (k + 1) r (setDataByte k b d)

theorem dataByte_storeBytes (k : Nat) (r : List Byte) (d : Vector Byte 8) (hk : k + r.length ≤ 8) (j : Nat) :
    dataByte (storeBytes k r d) j = if k ≤ j ∧ j < k + r.length then r.getD (j - k) 0 else dataByte d j := by
  induction r generalizing k d with
  | nil =>
    have hnot : ¬ (k ≤ j ∧ j < k + ([] : List Byte).length) := by simp only [List.length_nil]; omega
    rw [if_neg hnot, storeBytes]
  | cons b r ih =>
    rw [List.length_cons] at hk ⊢
    rw [storeBytes, ih _ _ (by omega), dataByte_setDataByte]
    by_cases hj : k = j
    · subst hj
      rw [if_neg (by omega), if_pos ⟨rfl, by omega⟩, if_pos (by omega), Nat.sub_self, List.getD_cons_zero]
    · have h2 : ¬ (k = j ∧ k < 8) := fun h => hj h.1
      rw [if_neg h2]
      by_cases hin : k + 1 ≤ j ∧ j < k + 1 + r.length
      · obtain ⟨i, rfl⟩ : ∃ i, j = k + 1 + i := ⟨j - (k + 1), by omega⟩
        rw [if_pos hin, if_pos (by omega), Nat.add_sub_cancel_left, show k + 1 + i - k = i + 1 by omega,
          List.getD_cons_succ]
      · rw [if_neg hin, if_neg (by omega)]

/-- RQ_DATA, one byte a round (43_request.md R104): the bytes are stored in order, summed and counted. -/
theorem receive_rounds {ps₀ : PeerScript} {s₀ : State} {e : Env} {line : List BusItem} {w : List Byte}
    (hl : e.Listening)
    (r : List Byte) {rest : List RxEvent} {ps : PeerScript} {s : State} {n : Nat} (hr : Rounds ps₀ s₀ n ps s)
    (hrx : ps.rx = r.map RxEvent.byte ++ rest) (hb : s.busy = true)
    (hp : s.phase = if s.idx = s.latch.len then .rqChk else .rqData) (hc : s.rxCount = s.idx)
    (hfit : s.idx.toNat + r.length ≤ s.latch.len.toNat) (h : Airing ps e line w s.env s.bus) :
    ∃ i env bus acts, i.toNat = s.idx.toNat + r.length ∧
      Rounds ps₀ s₀ (n + r.length) { ps with rx := rest }
        { s with
          data := storeBytes s.idx.toNat r s.data, sum := accum s.sum r, idx := i, rxCount := i
          phase := if i = s.latch.len then .rqChk else .rqData, env := env, bus := bus, acts := acts } ∧
      Airing { ps with rx := rest } e line w env bus := by
  induction r generalizing ps s n with
  | nil =>
    refine ⟨s.idx, s.env, s.bus, s.acts, rfl, ?_, h.withRx rest⟩
    have hself : ∀ c p, s.rxCount = c → s.phase = p → { s with rxCount := c, phase := p } = s := by
      rintro _ _ rfl rfl
      rfl
    have hrest : ps.rx = rest := hrx
    have hps : { ps with rx := rest } = ps := by rw [← hrest]
    rw [hps]
    rw [← hself _ _ hc hp] at hr
    exact hr
  | cons b r ih =>
    have hlen : (b :: r).length = r.length + 1 := rfl
    have hlt : s.idx.toNat < s.latch.len.toNat := by omega
    have hi := toNat_succ_idx hlt
    have hdata : s.phase = .rqData := by
      rw [hp, if_neg]
      intro heq
      rw [heq] at hlt
      exact Nat.lt_irrefl _ hlt
    obtain ⟨env, bus, acts, hone, hair⟩ := receive_round hr hdata hb hl hrx h
    obtain ⟨i, env, bus, acts, hi', hrun, hair⟩ :=
      ih hone rfl hb rfl rfl (by change (s.idx + 1).toNat + r.length ≤ s.latch.len.toNat; omega) hair
    refine ⟨i, env, bus, acts, ?_, ?_, hair⟩
    · change i.toNat = (s.idx + 1).toNat + r.length at hi'
      omega
    · have hrun := hrun.of_eq (n := n + (b :: r).length) (by omega)
      dsimp only at hrun
      rw [hi] at hrun
      exact hrun

/-! ### Whole REQUESTs -/

theorem exec_request_starts {f : CmdFields} {s : State} (hb : s.busy = false) (hi : s.initDone = true)
    (hf : checkParams f.id f.dp f.len = .ok) :
    exec (.request f) s =
      .next (startRequest Config.params.timeoutTicks f (storeCmd (.request f) s)) := by
  have hrun : runRequest Config.params.timeoutTicks f (storeCmd (.request f) s) =
      startRequest Config.params.timeoutTicks f (storeCmd (.request f) s) := by
    simp only [runRequest, hf]
  exact (accept_run _ _ hb hi).trans (congrArg _ hrun)

/-- The seed of a REQUEST (41_frame_encoder.md R73). -/
theorem request_seed (enh : Bool) (id : FrameId) :
    checksumSeed (enhEffective enh id) (encodePid id) =
      if enh = true ∧ id.toNat < 0x3C then encodePid id else 0x00#8 := by
  simp only [checksumSeed, enhEffective, Bool.and_eq_true, decide_eq_true_eq]

/-- The timer of a REQUEST is given at least one tick (00_scope.md R6). -/
theorem timeoutTicks_pos : 1 ≤ Config.params.timeoutTicks := Nat.le_max_left _ _

/-- A REQUEST from its start to TX_COLL: the header is on the air and the engine is ready to listen. -/
theorem request_header_rounds (ps : PeerScript) (f : CmdFields) (s : State) {m : Nat} (hm : 1 ≤ m) :
    ∃ e env bus acts, e.Listening ∧
      Rounds ps (startRequest m f s) (3 + s.sleeping.toNat) ps
        { s with
          sleeping := false, lastPid := encodePid f.id, phase := .txColl, env := env, bus := bus, acts := acts
          latch := latchFrame .rq f.id false (BitVec.ofNat 4 f.len) f.enh false s.data, idx := 0, busy := true
          rxCount := 0, sum := checksumSeed (enhEffective f.enh f.id) (encodePid f.id) } ∧
      Airing ps e (s.bus ++ (if s.sleeping then [.wake] else []) ++ [.brk]) [0x55#8, encodePid f.id] env bus := by
  have ht := startRequest_eq m f s
  generalize startRequest m f s = t at ht
  obtain ⟨env, bus, acts, hrun, hair⟩ := bare_rounds ps (t := t) (by rw [ht]) (by rw [ht])
    (by rw [ht]; exact ⟨rfl, rfl, rfl, rfl⟩) (by rw [ht]; rfl)
  subst ht
  exact ⟨_, env, bus, acts, ⟨rfl, rfl, rfl, rfl, rfl, rfl, hm⟩, hrun, hair⟩

/-- Settles O59: the header's rounds, TX_COLL with a conflict, then RQ_CLEAN and RQ_CLEAN_WAIT. -/
theorem requestHeaderCollides : Obligations.RequestHeaderCollides := by
  unfold Obligations.RequestHeaderCollides
  intro ps f s hb hi hid hlen hdp hm
  refine ⟨_, exec_request_starts hb hi (checkParams_eq_ok hid hlen hdp), ?_⟩
  obtain ⟨e, env, bus, acts, -, hrun, hair⟩ :=
    request_header_rounds ps f (storeCmd (.request f) s) timeoutTicks_pos
  obtain ⟨env, bus, hrun, hair⟩ := coll_collided_round hrun rfl rfl rfl hm hair
  obtain ⟨acts, hrun⟩ := clean_rounds hrun rfl rfl hair
  intro n u
  have hrun := hrun.of_eq (n := n) (by
    change 3 + s.sleeping.toNat + 1 + 2 = 6 + s.sleeping.toNat
    omega)
  refine ⟨hrun.busy, ?_⟩
  rw [show u = _ from hrun.refRun_eq]
  exact ⟨rfl, rfl, rfl, rfl, rfl, rfl, rfl, rfl, rfl, rfl, rfl⟩

/-- A REQUEST whose header is seen as sent, from its start to the last of the first bytes of its response. -/
theorem request_receive_rounds {ps : PeerScript} {f : CmdFields} {s : State} {m : Nat} {r : List Byte}
    {rest : List RxEvent} (hm : 1 ≤ m) (hlen : f.len ≤ 8) (hr : r.length ≤ f.len)
    (hrx : ps.rx = r.map RxEvent.byte ++ rest)
    (hclear : mismatch (observedSlots ps 0 [0x55#8, encodePid f.id]) = false) :
    ∃ e i env bus acts, e.Listening ∧ i.toNat = r.length ∧
      Rounds ps (startRequest m f s) (r.length + 4 + s.sleeping.toNat) { ps with rx := rest }
        { s with
          sleeping := false, lastPid := encodePid f.id, env := env, bus := bus, acts := acts
          latch := latchFrame .rq f.id false (BitVec.ofNat 4 f.len) f.enh false s.data, busy := true
          phase := if i = BitVec.ofNat 4 f.len then .rqChk else .rqData, idx := i, rxCount := i
          data := storeBytes 0 r s.data
          sum := accum (checksumSeed (enhEffective f.enh f.id) (encodePid f.id)) r } ∧
      Airing { ps with rx := rest } e (s.bus ++ (if s.sleeping then [.wake] else []) ++ [.brk])
        [0x55#8, encodePid f.id] env bus := by
  have hl : (BitVec.ofNat 4 f.len).toNat = f.len := by rw [BitVec.toNat_ofNat]; omega
  obtain ⟨e, env, bus, acts, hlis, hrun, hair⟩ := request_header_rounds ps f s hm
  obtain ⟨env, bus, hrun, hair⟩ := coll_clear_round hrun rfl rfl rfl hclear hair
  have hphase : (if BitVec.ofNat 4 f.len ≠ 0 then Phase.rqData else .rqChk) =
      if 0 = BitVec.ofNat 4 f.len then .rqChk else .rqData := by
    by_cases h0 : BitVec.ofNat 4 f.len = 0
    · rw [if_neg (not_not.mpr h0), if_pos h0.symm]
    · rw [if_pos h0, if_neg (Ne.symm h0)]
  obtain ⟨i, env, bus, acts, hi, hrun, hair⟩ := receive_rounds hlis r hrun hrx rfl hphase rfl
    (by change 0 + r.length ≤ (BitVec.ofNat 4 f.len).toNat; omega) hair
  exact ⟨e, i, env, bus, acts, hlis, hi.trans (Nat.zero_add _), hrun.of_eq (by omega), hair⟩

/-- The line of a REQUEST: its header and nothing else of the master. -/
theorem lineWith_request (ps : PeerScript) (r : List RxEvent) (bus : List BusItem) (woken : Bool) (w : List Byte) :
    lineWith { ps with rx := r } (bus ++ (if woken then [.wake] else []) ++ [.brk]) w =
      bus ++ lineOf woken (observedSlots ps 0 w) := by
  rw [lineWith_header, observedSlots_rx]

/-- The bytes of a response stand in DATA from DATA[0] on, the rest keeps its contents. -/
theorem dataByte_storeBytes_zero (r : List Byte) (d : Vector Byte 8) (hr : r.length ≤ 8) (k : Nat) :
    dataByte (storeBytes 0 r d) k = if k < r.length then r.getD k 0 else dataByte d k := by
  rw [dataByte_storeBytes 0 r d (by omega)]
  simp only [Nat.zero_le, true_and, Nat.zero_add, Nat.sub_zero]

/-- Settles O58: the header's rounds, the LEN bytes, the verdict on the checksum byte, then RQ_CLEAN and RQ_CLEAN_WAIT. -/
theorem requestAnswered : Obligations.RequestAnswered := by
  unfold Obligations.RequestAnswered
  intro ps f s r c rest hb hi hid hlen hdp hr hrx hclear
  refine ⟨_, exec_request_starts hb hi (checkParams_eq_ok hid hlen hdp), ?_⟩
  rw [List.append_assoc] at hrx
  obtain ⟨e, i, env, bus, acts, hlis, hcount, hrun, hair⟩ :=
    request_receive_rounds (s := storeCmd (.request f) s) timeoutTicks_pos hlen hr.le hrx hclear
  have hl : (BitVec.ofNat 4 f.len).toNat = f.len := by rw [BitVec.toNat_ofNat]; omega
  have hfull : i = BitVec.ofNat 4 f.len := BitVec.eq_of_toNat_eq (by omega)
  rw [if_pos hfull, request_seed] at hrun
  obtain ⟨env, bus, acts, hrun, hair⟩ := verdict_round hrun rfl rfl hlis rfl hair
  obtain ⟨acts, hrun⟩ := clean_rounds hrun rfl rfl hair
  intro seed n u
  have hrun := hrun.of_eq (n := n) (by
    change r.length + 4 + s.sleeping.toNat + 1 + 2 = f.len + 7 + s.sleeping.toNat
    omega)
  refine ⟨hrun.busy, ?_⟩
  rw [show u = _ from hrun.refRun_eq]
  have hvalid : responseValid seed r c = true ↔ acc (accum seed r) c = 0xFF#8 := beq_iff_eq
  refine ⟨rfl, rfl, lineWith_request _ _ _ _ _, ?_, ?_, fun k => ?_, hcount.trans hr, rfl, rfl, rfl, rfl, rfl, rfl⟩
  · simp only [hvalid]; rfl
  · simp only [hvalid]; rfl
  · rw [← hr]
    exact dataByte_storeBytes_zero r s.data (by omega) k

/-- Settles O60: the header's rounds, the bytes that arrive, the round that breaks off, then RQ_CLEAN and
RQ_CLEAN_WAIT. -/
theorem requestBreaksOff : Obligations.RequestBreaksOff := by
  unfold Obligations.RequestBreaksOff
  intro ps f s r fails rest hb hi hid hlen hdp hr hrx hclear
  refine ⟨_, exec_request_starts hb hi (checkParams_eq_ok hid hlen hdp), ?_⟩
  have hpoll (i : BitVec 4) : (if i = BitVec.ofNat 4 f.len then Phase.rqChk else .rqData) = .rqData ∨
      (if i = BitVec.ofNat 4 f.len then Phase.rqChk else .rqData) = .rqChk := by
    split
    · exact .inr rfl
    · exact .inl rfl
  have hn : r.length + 4 + s.sleeping.toNat + 1 + 2 = r.length + 7 + s.sleeping.toNat := by omega
  cases fails
  · obtain ⟨tail, hrx, htail⟩ : ∃ tail, ps.rx = r.map RxEvent.byte ++ tail ∧
        ∃ rest', tail = .timeout :: rest' ∨ tail = [] ∧ rest' = [] := by
      obtain hrx | hrx := hrx
      · exact ⟨_, hrx, rest, .inl rfl⟩
      · exact ⟨[], hrx.trans (List.append_nil _).symm, [], .inr ⟨rfl, rfl⟩⟩
    obtain ⟨rest', htail⟩ := htail
    obtain ⟨e, i, env, bus, acts, hlis, hcount, hrun, hair⟩ :=
      request_receive_rounds (s := storeCmd (.request f) s) timeoutTicks_pos hlen hr hrx hclear
    obtain ⟨env, bus, hrun, hair⟩ := timeout_round hrun (hpoll i) rfl hlis htail hair
    obtain ⟨acts, hrun⟩ := clean_rounds hrun rfl rfl hair
    intro n u
    have hrun := hrun.of_eq (n := n) hn
    refine ⟨hrun.busy, ?_⟩
    rw [show u = _ from hrun.refRun_eq]
    exact ⟨rfl, rfl, rfl, rfl, dataByte_storeBytes_zero r s.data (by omega), hcount, rfl, rfl, rfl, rfl, rfl⟩
  · obtain ⟨e, i, env, bus, acts, hlis, hcount, hrun, hair⟩ :=
      request_receive_rounds (s := storeCmd (.request f) s) timeoutTicks_pos hlen hr hrx hclear
    obtain ⟨env, bus, hrun, hair⟩ := frameError_round hrun (hpoll i) rfl hlis rfl hair
    obtain ⟨acts, hrun⟩ := clean_rounds hrun rfl rfl hair
    intro n u
    have hrun := hrun.of_eq (n := n) hn
    refine ⟨hrun.busy, ?_⟩
    rw [show u = _ from hrun.refRun_eq]
    exact ⟨rfl, rfl, rfl, rfl, dataByte_storeBytes_zero r s.data (by omega), hcount, rfl, rfl, rfl, rfl, rfl⟩

end Sys2Proof.Machine
end

section
/-! Refused host accesses: what is no aligned 32-bit access, and writes while a frame is in progress (20_memory.md R35,
R39). -/

namespace Sys2Proof.Machine

/-! ### Bad accesses -/

/-- An access that begins inside the aperture, or below and reaches in, is the block's (20_memory.md R33; log 13). -/
theorem inAperture_of_reaches {off : Int} {size : Nat} (h1 : off < 128) (h : 0 ≤ off ∨ 0 < off + size) :
    inAperture off size = true := by
  simp [inAperture, h1, h]

theorem goodAccess_eq_false {off : Int} {size : Nat} (h : ¬ (size = 4 ∧ off % 4 = 0)) : goodAccess off size = false := by
  simpa [goodAccess] using h

/-- A write within the aperture that is no aligned 32-bit access is refused (20_memory.md R35). -/
theorem hostWrite_badAccess {off : Int} {size : Nat} (ha : inAperture off size = true)
    (hg : goodAccess off size = false) (v : Word) (s : State) :
    hostWrite off size v s = .next (refuse .badAccess s) := by
  simp [hostWrite, ha, hg]

/-- A read within the aperture that is no aligned 32-bit access is refused and returns 0 (20_memory.md R35). -/
theorem hostRead_badAccess {off : Int} {size : Nat} (ha : inAperture off size = true)
    (hg : goodAccess off size = false) (s : State) :
    hostRead off size s = refuse .badAccess { s with hostData := 0 } := by
  simp [hostRead, ha, hg]

/-- Settles O17: such an access is the block's but not admitted, so `refuse` is all it does. -/
theorem badAccess : Obligations.BadAccess := by
  unfold Obligations.BadAccess
  intro off size v s h1 hreach hbad
  have ha := inAperture_of_reaches h1 hreach
  have hg := goodAccess_eq_false hbad
  exact ⟨hostWrite_badAccess ha hg v s, hostRead_badAccess ha hg s⟩

/-! ### Writes while a frame is in progress -/

/-- BUSY is the first check of every command (30_encoding.md R49). -/
theorem exec_eq_refuse_of_busy {s : State} (hb : s.busy = true) (i : Instr) :
    exec i s = .next (refuse .writeWhileBusy s) := by
  cases i <;> exact if_pos hb

/-- BUSY comes before the word's own checks (30_encoding.md R49). -/
theorem writeCmd_eq_refuse_of_busy {s : State} (hb : s.busy = true) (v : Word) :
    writeCmd v s = .next (refuse .writeWhileBusy s) := by
  unfold writeCmd
  split
  · exact exec_eq_refuse_of_busy hb _
  · rw [if_pos hb]

theorem writeStorage_eq_refuse_of_busy {s : State} (hb : s.busy = true) (store : State → State) :
    writeStorage store s = refuse .writeWhileBusy s :=
  if_pos hb

/-- While a frame is in progress the four writable registers refuse the admitted write (20_memory.md R39). -/
theorem hostWrite_eq_refuse_of_busy {s : State} (hb : s.busy = true) (v : Word) {off : Int}
    (hoff : off = 0x00 ∨ off = 0x08 ∨ off = 0x20 ∨ off = 0x24) :
    hostWrite off 4 v s = .next (refuse .writeWhileBusy s) := by
  rw [hostWrite_aligned (by omega) (by omega) (by omega)]
  obtain rfl | rfl | rfl | rfl := hoff
  · exact writeCmd_eq_refuse_of_busy hb v
  all_goals exact congrArg _ (writeStorage_eq_refuse_of_busy hb _)

/-- Settles O21: the four refusals, and reads, which BUSY does not enter. -/
theorem busyWrites : Obligations.BusyWrites := by
  unfold Obligations.BusyWrites
  intro v s hb
  refine ⟨fun off => hostWrite_eq_refuse_of_busy hb v, fun off h0 h1 h4 => hostRead_aligned h0 h1 h4 s, ?_, ?_⟩
  · rw [hostRead_aligned (by decide) (by decide) (by decide)]
    exact readOffset_offset s .data0
  · rw [hostRead_aligned (by decide) (by decide) (by decide)]
    exact readOffset_offset s .data1

end Sys2Proof.Machine
end

section
/-! Command words: their fields as numbers, everything the decoder can answer, and the opcode table's mask
(30_encoding.md R46 to R50). -/

namespace Sys2Proof.Machine

/-! ### The fields of a word -/

/-- A field of a word as a number. -/
theorem extract_toNat {w : Nat} (v : BitVec w) (start n : Nat) :
    (v.extractLsb' start n).toNat = v.toNat / 2 ^ start % 2 ^ n := by
  rw [BitVec.extractLsb'_toNat, Nat.shiftRight_eq_div_pow]

/-- A bit of a word as a number. -/
theorem getLsbD_toNat {w : Nat} (v : BitVec w) (i : Nat) : (v.getLsbD i).toNat = v.toNat / 2 ^ i % 2 :=
  Nat.toNat_testBit v.toNat i

theorem getLsbD_eq_true_iff {w : Nat} (v : BitVec w) (i : Nat) : v.getLsbD i = true ↔ v.toNat / 2 ^ i % 2 = 1 := by
  rw [← getLsbD_toNat, Bool.toNat_eq_one]

theorem wordOp_toNat (v : Word) : (wordOp v).toNat = v.toNat % 16 := by
  simp [wordOp]

/-- The reserved-bit question as arithmetic (30_encoding.md R47). -/
theorem wordReserved_iff (v : Word) : wordReserved v = true ↔ reservedBits v.toNat := by
  simp only [wordReserved, reservedBits, Bool.or_eq_true, bne_iff_ne, ne_eq, ← BitVec.toNat_inj, extract_toNat,
    BitVec.toNat_ofNat, Nat.zero_mod, or_assoc]

theorem wordReserved_eq_false_iff (v : Word) : wordReserved v = false ↔ ¬ reservedBits v.toNat := by
  rw [← wordReserved_iff, Bool.not_eq_true]

/-- An encoded word as a number (30_encoding.md R46). -/
theorem encodeFields_toNat (op : BitVec 4) {f : CmdFields} (hf : f.wellFormed = true) :
    (encodeFields op f).toNat = op.toNat + 2 ^ 8 * f.id.toNat + 2 ^ 16 * f.len + 2 ^ 20 * f.dp.toNat +
      2 ^ 21 * f.enh.toNat + 2 ^ 22 * f.inj.toNat + 2 ^ 23 * f.force.toNat := by
  have hlen : f.len < 2 ^ 4 := by simpa [CmdFields.wellFormed] using hf
  simp only [encodeFields, toNat_append_add, flagBit_toNat, BitVec.toNat_ofNat, Nat.zero_mod, Nat.mod_eq_of_lt hlen]
  ring

/-- A word without reserved bits is the word of its own opcode and fields: no bit of it is dropped. -/
theorem encodeFields_of_word {v : Word} (h : wordReserved v = false) :
    encodeFields (wordOp v) (wordFields v) = v := by
  apply BitVec.eq_of_toNat_eq
  have hr := (wordReserved_eq_false_iff v).mp h
  have hv := v.isLt
  rw [encodeFields_toNat _ (wordFields_wellFormed v), wordOp_toNat]
  simp only [wordFields, extract_toNat, getLsbD_toNat]
  unfold reservedBits at hr
  omega

/-! ### The decoder -/

/-- Everything the decoder can answer, in the order of its checks (30_encoding.md R49, R50). -/
theorem decode_cases (v : Word) :
    (wordReserved v = true ∧ decode v = .error .rsvdBits) ∨
    (wordReserved v = false ∧ 6 ≤ (wordOp v).toNat ∧ decode v = .error .rsvdOpcode) ∨
    (wordReserved v = false ∧ (wordOp v).toNat < 6 ∧
      ∃ i, decode v = .ok i ∧ i.opcode = wordOp v ∧ i.fields = wordFields v) := by
  unfold decode
  split_ifs with hr h0 h1 h2 h3 h4 h5
  · exact .inl ⟨hr, rfl⟩
  case neg => exact .inr (.inl ⟨by simpa using hr, by bv_omega, rfl⟩)
  all_goals
    exact .inr (.inr ⟨by simpa using hr, by bv_omega, _, rfl, by simp_all [Instr.opcode], rfl⟩)

theorem opcode_toNat_lt (i : Instr) : i.opcode.toNat < 6 := by
  cases i <;> simp [Instr.opcode]

/-- A command is its opcode and its fields. -/
theorem eq_of_opcode_fields {i j : Instr} (ho : i.opcode = j.opcode) (hf : i.fields = j.fields) : i = j := by
  cases i <;> cases j <;> simp_all [Instr.opcode, Instr.fields]

/-- The words of a command: no reserved bit, its opcode, its fields. -/
theorem decode_eq_ok_iff {v : Word} {i : Instr} :
    decode v = .ok i ↔ wordReserved v = false ∧ wordOp v = i.opcode ∧ wordFields v = i.fields := by
  obtain ⟨hr, hd⟩ | ⟨hr, hop, hd⟩ | ⟨hr, hop, j, hd, hj, hf⟩ := decode_cases v
  · simp [hd, hr]
  · have hne : wordOp v ≠ i.opcode := fun h => absurd (opcode_toNat_lt i) (by rw [← h]; omega)
    simp [hd, hne]
  · rw [hd, ← hj, ← hf]
    constructor
    · intro h
      obtain rfl := Except.ok.inj h
      exact ⟨hr, rfl, rfl⟩
    · rintro ⟨-, h1, h2⟩
      exact congrArg _ (eq_of_opcode_fields h1 h2)

theorem decode_eq_rsvdBits_iff {v : Word} : decode v = .error .rsvdBits ↔ wordReserved v = true := by
  obtain ⟨hr, hd⟩ | ⟨hr, -, hd⟩ | ⟨hr, -, i, hd, -⟩ := decode_cases v <;> simp [hd, hr]

theorem decode_eq_rsvdOpcode_iff {v : Word} :
    decode v = .error .rsvdOpcode ↔ wordReserved v = false ∧ 6 ≤ (wordOp v).toNat := by
  obtain ⟨hr, hd⟩ | ⟨hr, hop, hd⟩ | ⟨hr, hop, i, hd, -⟩ := decode_cases v
  · simp [hd, hr]
  · simp [hd, hr, hop]
  · simp [hd, hop]

theorem decode_ne_notOneWord (v : Word) : decode v ≠ .error .notOneWord := by
  obtain ⟨-, hd⟩ | ⟨-, -, hd⟩ | ⟨-, -, i, hd, -⟩ := decode_cases v <;> simp [hd]

/-- The command a word names, found from its bits alone. -/
theorem exists_decode {v : Word} (hr : wordReserved v = false) (hop : (wordOp v).toNat < 6) :
    ∃ i, decode v = .ok i ∧ i.opcode = wordOp v := by
  obtain ⟨hr', -⟩ | ⟨-, hop', -⟩ | ⟨-, -, i, hd, hi, -⟩ := decode_cases v
  · simp [hr] at hr'
  · omega
  · exact ⟨i, hd, hi⟩

/-- Decoding the word of a well-formed command gives the command back. -/
theorem decode_encode {i : Instr} (h : i.WellFormed) : decode (encode i) = .ok i :=
  decode_eq_ok_iff.mpr
    ⟨wordReserved_encodeFields _ _, wordOp_encodeFields _ _, wordFields_encodeFields _ _ h⟩

/-- A word that decodes is the word of its command, and that command is well-formed. -/
theorem encode_of_decode {v : Word} {i : Instr} (h : decode v = .ok i) : i.WellFormed ∧ encode i = v := by
  obtain ⟨hr, hop, hf⟩ := decode_eq_ok_iff.mp h
  constructor
  · rw [Instr.WellFormed, Instr.wellFormed, ← hf]
    exact wordFields_wellFormed v
  · rw [encode, ← hop, ← hf]
    exact encodeFields_of_word hr

/-- A command word is its own number in the opcode table (20_memory.md R36). -/
theorem decodeTableWord_toNat {v : Word} {i : Instr} (h : decode v = .ok i) :
    decodeTableWord 32 v.toNat = some i := by
  have hw : tableWord 32 v.toNat = v.toNat := Nat.mod_eq_of_lt v.isLt
  rw [decodeTableWord, hw, if_pos v.isLt, BitVec.ofNat_toNat, BitVec.setWidth_eq, decodeBytes_bytesOfWord, h]

/-- Settles O1: the decoder's answer is the opcode and the fields, and these are all the bits of an unreserved word. -/
theorem decodeEncode : Obligations.DecodeEncode := by
  unfold Obligations.DecodeEncode
  refine ⟨fun i hi => ?_, fun v i => encode_of_decode⟩
  have hd := decode_encode hi
  exact ⟨hd, (decodeBytes_bytesOfWord _).trans hd, decodeTableWord_toNat hd⟩

/-- Settles O2: each field is a quotient by its place and a remainder by its width. -/
theorem fieldsAreBits : Obligations.FieldsAreBits := by
  unfold Obligations.FieldsAreBits
  exact fun v => ⟨wordOp_toNat v, extract_toNat v 8 6, extract_toNat v 16 4, getLsbD_eq_true_iff v 20,
    getLsbD_eq_true_iff v 21, getLsbD_eq_true_iff v 22, getLsbD_eq_true_iff v 23, wordReserved_iff v⟩

/-- The table's mask keeps OP and the three reserved fields. -/
theorem and_opcodeMask (v : Word) :
    v &&& 0xFF00C0FF#32 =
      v.extractLsb' 24 8 ++ 0#8 ++ v.extractLsb' 14 2 ++ 0#6 ++ v.extractLsb' 4 4 ++ v.extractLsb' 0 4 := by
  apply BitVec.eq_of_getLsbD_eq
  intro i hi
  simp only [BitVec.getLsbD_and, BitVec.getLsbD_append, BitVec.getLsbD_extractLsb']
  interval_cases i <;> simp

/-- A word meets a row of the opcode table exactly if it has no reserved bit and the row's opcode. -/
theorem and_opcodeMask_eq_iff (v : Word) (k : BitVec 4) :
    v &&& 0xFF00C0FF#32 = k.setWidth 32 ↔ wordReserved v = false ∧ wordOp v = k := by
  have hk := k.isLt
  rw [and_opcodeMask, wordReserved_eq_false_iff]
  simp only [reservedBits, ← BitVec.toNat_inj, toNat_append_add, wordOp, extract_toNat, BitVec.toNat_setWidth,
    BitVec.toNat_ofNat]
  omega

/-- Settles O3: both sides ask for no reserved bit and for opcode k. -/
theorem decodeMatchesTable : Obligations.DecodeMatchesTable := by
  unfold Obligations.DecodeMatchesTable
  intro v k hk
  rw [and_opcodeMask_eq_iff]
  constructor
  · rintro ⟨i, hd, rfl⟩
    obtain ⟨hr, hop, -⟩ := decode_eq_ok_iff.mp hd
    exact ⟨hr, hop⟩
  · rintro ⟨hr, rfl⟩
    exact exists_decode hr hk

/-- Settles O4: the two rejections in their order, and no other. -/
theorem decodeRejects : Obligations.DecodeRejects := by
  unfold Obligations.DecodeRejects
  intro v
  rw [decode_eq_rsvdBits_iff, decode_eq_rsvdOpcode_iff, wordReserved_iff, wordReserved_eq_false_iff, wordOp_toNat]
  exact ⟨Iff.rfl, Iff.rfl, decode_ne_notOneWord v⟩

/-- Settles O5: the decoder run on each word. -/
theorem specWordsDecode : Obligations.SpecWordsDecode := by
  unfold Obligations.SpecWordsDecode
  exact ⟨rfl, rfl, rfl, rfl, rfl, rfl, rfl, rfl, rfl⟩

end Sys2Proof.Machine
end

section
/-! A write to CMD: its checks in their order, what an accepted command leaves in CMD, and the fields a command reads
(30_encoding.md R48, R49, 10_state.md R15). -/

namespace Sys2Proof.Machine

/-! ### The checks -/

/-- A word that is no command is refused for its own cause once no frame is in progress (30_encoding.md R49). -/
theorem writeCmd_of_reject {v : Word} {r : Reject} {s : State} (hb : s.busy = false) (h : decode v = .error r) :
    writeCmd v s = .next (refuse (rejectCause r) s) := by
  simp only [writeCmd, h, hb, Bool.false_eq_true, if_false]

/-- The commands that need INIT_DONE, by their opcodes (30_encoding.md R48). -/
theorem sendsFrame_iff_opcode (i : Instr) : sendsFrame i = true ↔ 2 ≤ i.opcode.toNat ∧ i.opcode.toNat ≤ 4 := by
  cases i <;> simp [sendsFrame, Instr.opcode]

/-- A frame command before INIT is refused (30_encoding.md R49). -/
theorem exec_eq_refuse_notInit {i : Instr} {s : State} (hs : sendsFrame i = true) (hb : s.busy = false)
    (hi : s.initDone = false) : exec i s = .next (refuse .notInit s) := by
  have hrefuse (j : Instr) (run : State → State) : accept true j run s = .next (refuse .notInit s) := by
    simp [accept, hb, hi]
  cases i with
  | transmit f => exact hrefuse _ _
  | request f => exact hrefuse _ _
  | sleep f => exact hrefuse _ _
  | nop f => cases hs
  | init f => cases hs
  | resetCounters f => cases hs

/-! ### CMD after an accepted command -/

/-- An effect neither reads CMD nor changes it (10_state.md R15). -/
def CmdBlind (run : State → State) : Prop := ∀ s w, run { s with cmd := w } = { run s with cmd := w }

theorem CmdBlind.cmd {run : State → State} (h : CmdBlind run) (s : State) : (run s).cmd = s.cmd :=
  (congrArg State.cmd (h s s.cmd) :)

theorem setResult_cmdBlind (r : ResultCode) : CmdBlind (setResult r) := fun _ _ => rfl

theorem runResetCounters_cmdBlind : CmdBlind runResetCounters := fun _ _ => rfl

theorem runTransmit_cmdBlind (f : CmdFields) : CmdBlind (runTransmit f) := by
  intro s w
  unfold runTransmit
  generalize checkParams f.id f.dp f.len = r
  cases r <;> rfl

theorem runRequest_cmdBlind (n : Nat) (f : CmdFields) : CmdBlind (runRequest n f) := by
  intro s w
  unfold runRequest
  generalize checkParams f.id f.dp f.len = r
  cases r <;> rfl

theorem runSleep_cmdBlind (f : CmdFields) : CmdBlind (runSleep f) := by
  intro s w
  unfold runSleep
  generalize (s.sleeping && !f.force) = skipped
  cases skipped <;> rfl

/-- CMD holds the word of an accepted command (10_state.md R15). -/
theorem accept_stores {needsInit : Bool} {run : State → State} (hrun : CmdBlind run) (i : Instr) {s : State}
    (hb : s.busy = false) (hi : needsInit = true → s.initDone = true) :
    ∃ t, accept needsInit i run s = .next t ∧ t.cmd = encode i := by
  refine ⟨run (storeCmd i s), ?_, hrun.cmd _⟩
  cases needsInit
  · simp [accept, hb]
  · simp [accept, hb, hi rfl]

/-- INIT while no frame is in progress: its own two refusals, or its word in CMD (40_bit_timing.md R60). -/
theorem initWith_stores (p : Params) (f : CmdFields) {s : State} (hb : s.busy = false) :
    ∃ t, initWith p f s = .next t ∧
      (t.cmd = encode (.init f) ∨ t = refuse .alreadyInit s ∨ t = refuse .badBaud s) := by
  simp only [initWith, hb, Bool.false_eq_true, if_false]
  split
  · exact ⟨_, rfl, .inr (.inl rfl)⟩
  split
  · exact ⟨_, rfl, .inr (.inr rfl)⟩
  split
  · exact ⟨_, rfl, .inr (.inr rfl)⟩
  · exact ⟨_, rfl, .inl rfl⟩

/-- A command that passes the checks of a CMD write answers a next state with its word in CMD, but for INIT's own
refusals (30_encoding.md R49). -/
theorem exec_stores {i : Instr} {s : State} (hb : s.busy = false) (hi : sendsFrame i = true → s.initDone = true) :
    ∃ t, exec i s = .next t ∧
      (t.cmd = encode i ∨ i.opcode = 0x1#4 ∧ (t = refuse .alreadyInit s ∨ t = refuse .badBaud s)) := by
  cases i with
  | init f =>
    obtain ⟨t, he, h⟩ := initWith_stores Config.params f hb
    exact ⟨t, he, h.imp_right fun h => ⟨rfl, h⟩⟩
  | nop f => exact (accept_stores (needsInit := false) (setResult_cmdBlind _) _ hb nofun).imp fun _ => And.imp_right .inl
  | transmit f => exact (accept_stores (runTransmit_cmdBlind f) _ hb hi).imp fun _ => And.imp_right .inl
  | request f => exact (accept_stores (runRequest_cmdBlind _ f) _ hb hi).imp fun _ => And.imp_right .inl
  | sleep f => exact (accept_stores (runSleep_cmdBlind f) _ hb hi).imp fun _ => And.imp_right .inl
  | resetCounters f =>
    exact (accept_stores (needsInit := false) runResetCounters_cmdBlind _ hb nofun).imp fun _ => And.imp_right .inl

/-- Settles O7: BUSY, then the word's two rejections, then INIT_DONE by the opcode, then the command itself. -/
theorem cmdWriteOrder : Obligations.CmdWriteOrder := by
  unfold Obligations.CmdWriteOrder
  intro v s
  simp only [← wordReserved_iff, Bool.not_eq_true, ← wordOp_toNat, hostWrite_cmd]
  refine ⟨fun hb => writeCmd_eq_refuse_of_busy hb v, fun hb hr => writeCmd_of_reject hb (decode_eq_rsvdBits_iff.mpr hr),
    fun hb hr hop => writeCmd_of_reject hb (decode_eq_rsvdOpcode_iff.mpr ⟨hr, hop⟩), fun hb hr hop hop' hi => ?_,
    fun hb hr hop hi => ?_⟩
  · obtain ⟨i, hd, ho⟩ := exists_decode hr (by omega)
    rw [writeCmd_of_decode hd]
    exact exec_eq_refuse_notInit ((sendsFrame_iff_opcode i).mpr (by rw [ho]; exact ⟨hop, hop'⟩)) hb hi
  · obtain ⟨i, hd, ho⟩ := exists_decode hr hop
    rw [← ho, ← sendsFrame_iff_opcode] at hi
    obtain ⟨t, he, ht⟩ := exec_stores hb hi
    rw [(encode_of_decode hd).2, ho] at ht
    exact ⟨i, t, hd, by rw [ho], writeCmd_of_decode hd s, he, ht.imp_right (And.imp_left (congrArg BitVec.toNat))⟩

/-! ### The fields a command reads -/

theorem agreeButCmd_refl (s : State) : AgreeButCmd (.next s) (.next s) := ⟨s, s, rfl, rfl, rfl⟩

/-- Two commands with one effect under one check agree (30_encoding.md R48). -/
theorem accept_agreeButCmd {run : State → State} (hrun : CmdBlind run) (needsInit : Bool) (i j : Instr) (s : State) :
    AgreeButCmd (accept needsInit i run s) (accept needsInit j run s) := by
  have hcmd (k : Instr) : { run (storeCmd k s) with cmd := 0 } = { run s with cmd := 0 } := by
    rw [storeCmd, hrun]
  unfold accept
  split
  · exact agreeButCmd_refl _
  split
  · exact agreeButCmd_refl _
  · exact ⟨_, _, rfl, rfl, (hcmd i).trans (hcmd j).symm⟩

/-- INIT reads no field (30_encoding.md R48). -/
theorem initWith_agreeButCmd (p : Params) (f g : CmdFields) (s : State) :
    AgreeButCmd (initWith p f s) (initWith p g s) := by
  unfold initWith
  split
  · exact agreeButCmd_refl _
  split
  · exact agreeButCmd_refl _
  split
  · exact agreeButCmd_refl _
  split
  · exact agreeButCmd_refl _
  · exact ⟨_, _, rfl, rfl, rfl⟩

theorem runSleep_congr {f g : CmdFields} (h : f.force = g.force) : runSleep f = runSleep g := by
  funext s
  simp only [runSleep, h]

theorem runRequest_congr {f g : CmdFields} (n : Nat) (hid : f.id = g.id) (hlen : f.len = g.len) (hdp : f.dp = g.dp)
    (henh : f.enh = g.enh) : runRequest n f = runRequest n g := by
  funext s
  simp only [runRequest, startRequest, hid, hlen, hdp, henh]

theorem runTransmit_congr {f g : CmdFields} (hid : f.id = g.id) (hlen : f.len = g.len) (hdp : f.dp = g.dp)
    (henh : f.enh = g.enh) (hinj : f.inj = g.inj) : runTransmit f = runTransmit g := by
  funext s
  simp only [runTransmit, hid, hlen, hdp, henh, hinj]

/-- Settles O16: each command's effect is a function of the fields it reads, and it never reads CMD. -/
theorem ignoredFields : Obligations.IgnoredFields := by
  unfold Obligations.IgnoredFields
  intro f g s
  refine ⟨accept_agreeButCmd (setResult_cmdBlind _) _ _ _ s, initWith_agreeButCmd _ f g s,
    accept_agreeButCmd runResetCounters_cmdBlind _ _ _ s, fun hforce => ?_, fun hid hlen hdp henh => ?_,
    fun hid hlen hdp henh hinj => ?_⟩
  · simp only [exec, execSleep, runSleep_congr hforce]
    exact accept_agreeButCmd (runSleep_cmdBlind g) _ _ _ s
  · simp only [exec, execRequest, requestWith, runRequest_congr _ hid hlen hdp henh]
    exact accept_agreeButCmd (runRequest_cmdBlind _ g) _ _ _ s
  · simp only [exec, execTransmit, runTransmit_congr hid hlen hdp henh hinj]
    exact accept_agreeButCmd (runTransmit_cmdBlind g) _ _ _ s

end Sys2Proof.Machine
end

section
/-! The end of a frame's transmit phases: what was sent, and the verdict (42_transmit.md R94, R97). -/

namespace Sys2Proof.Machine

/-- In TX_COLL the slots hold the whole frame: nothing waits any more (30_encoding.md R53). -/
theorem Inv.sent_of_txColl {s : State} (h : Inv s) (hp : s.phase = .txColl) :
    s.env.slots.map Prod.fst = frameBytes s.latch s.data := by
  have henv := h.envInv (h.busyIff.mpr (by simp [hp]))
  have hafter : s.phase.beforeTxc = false := by rw [hp]; rfl
  rw [← writtenBytes_whole (.inr ⟨hafter, by simp [hp]⟩), ← henv.sentEq, henv.allSent hafter, List.append_nil]

/-- TX_COLL counts one conflict exactly if COLL is set, whatever the command (42_transmit.md R94). -/
theorem engTxColl_cnt (s : State) : (engTxColl s).cnt = if s.env.coll = true then s.cnt.incMConf else s.cnt := by
  cases hop : s.latch.op
  case tx => rw [engTxColl_transmit_eq hop]
  case sl => rw [engTxColl_sleep_eq hop]
  case rq =>
    cases hc : s.env.coll
    · rw [engTxColl_clear_eq hop hc]; rfl
    · rw [engTxColl_collided_eq hop hc]; rfl

/-- TX_COLL ends TRANSMIT and SLEEP with its verdict, and SLEEPING rises for SLEEP alone (42_transmit.md R94,
44_counters_sleep.md R116). -/
theorem engTxColl_ends {s : State} (hop : s.latch.op ≠ .rq) (hawake : s.sleeping = false) :
    (engTxColl s).busy = false ∧ (engTxColl s).result = collResult s.env ∧
      ((engTxColl s).sleeping = true ↔ s.latch.op = .sl) := by
  cases h : s.latch.op
  case rq => exact absurd h hop
  case tx => rw [engTxColl_transmit_eq h]; simp [hawake]
  case sl => rw [engTxColl_sleep_eq h]; simp

/-- A REQUEST goes on after TX_COLL, to RQ_CLEAN exactly after a collision (43_request.md R102). -/
theorem engTxColl_goesOn {s : State} (hop : s.latch.op = .rq) :
    (engTxColl s).busy = s.busy ∧ (engTxColl s).data = s.data ∧
      ((engTxColl s).phase = .rqClean ↔ s.env.coll = true) := by
  cases hc : s.env.coll
  · rw [engTxColl_clear_eq hop hc]
    refine ⟨rfl, rfl, ?_⟩
    by_cases hl : s.latch.len = 0#4 <;> simp [hl]
  · rw [engTxColl_collided_eq hop hc]
    simp

/-- Settles O51: the invariant ties the slots to the frame's bytes and COLL to a mismatch; TX_COLL judges by COLL. -/
theorem frameSentWhole : Obligations.FrameSentWhole := by
  unfold Obligations.FrameSentWhole
  intro s h hp
  have hb : s.busy = true := h.busyIff.mpr (by simp [hp])
  have hawake : s.sleeping = false := (h.phaseInv hb).awake (by simp [hp]) (by simp [hp])
  rw [h.sent_of_txColl hp, frameBytes, (h.latchInv hb).pidEq, engineStep_txColl hp, ← (h.envInv hb).collEq]
  refine ⟨rfl, engTxColl_cnt s, fun hop => engTxColl_ends hop hawake, fun hop => ?_⟩
  obtain ⟨hbusy, hgoes⟩ := engTxColl_goesOn hop
  exact ⟨hbusy.trans hb, hgoes⟩

end Sys2Proof.Machine
end

section
/-! NOP and INIT, who writes the timing values, and the waveforms on the line (spec/40_bit_timing.md). -/

namespace Sys2Proof.Machine

/-! ### NOP -/

/-- A command admitted before INIT runs whenever no frame is in progress (30_encoding.md R49). -/
theorem accept_beforeInit (i : Instr) (run : State → State) {s : State} (hb : s.busy = false) :
    accept false i run s = .next (run (storeCmd i s)) := by
  simp [accept, hb]

/-- NOP records its word and OK, nothing else (40_bit_timing.md R59). -/
theorem exec_nop (f : CmdFields) {s : State} (hb : s.busy = false) :
    exec (.nop f) s = .next { s with cmd := encode (.nop f), result := .ok } :=
  accept_beforeInit _ _ hb

/-- A word with OP 0 and no reserved bit is a NOP (30_encoding.md R48). -/
theorem decode_nop {v : Word} (hr : wordReserved v = false) (hop : v.toNat % 16 = 0) :
    decode v = .ok (.nop (wordFields v)) :=
  decode_eq_ok_iff.mpr ⟨hr, BitVec.eq_of_toNat_eq ((wordOp_toNat v).trans hop), rfl⟩

/-- A NOP's word written to CMD: BUSY is checked first, then the reserved bits (30_encoding.md R49, 40_bit_timing.md
R59). -/
theorem hostWrite_nop {v : Word} (hop : v.toNat % 16 = 0) (s : State) :
    hostWrite 0x00 4 v s =
      if s.busy = true then .next (refuse .writeWhileBusy s)
      else if wordReserved v = true then .next (refuse .rsvdBits s)
      else .next { s with cmd := v, result := .ok } := by
  rw [hostWrite_cmd]
  split_ifs with hb hr
  · exact writeCmd_eq_refuse_of_busy hb v
  · exact writeCmd_of_reject (eq_false_of_ne_true hb) (decode_eq_rsvdBits_iff.mpr hr)
  · have hd := decode_nop (eq_false_of_ne_true hr) hop
    rw [writeCmd_of_decode hd, exec_nop _ (eq_false_of_ne_true hb), (encode_of_decode hd).2]

/-- Settles O9: NOP as the command, as a written word, and on the reset state. -/
theorem nopCompletes : Obligations.NopCompletes := by
  unfold Obligations.NopCompletes
  exact ⟨fun f _ hb => exec_nop f hb, fun _ s hop => hostWrite_nop hop s, by decide,
    { State.reset with cmd := 0, result := .ok }, hostWrite_nop rfl State.reset, by decide⟩

/-! ### INIT and the timing values -/

/-- BITTIME holds BIT_TICKS wherever 32 bits can (10_state.md R18). -/
theorem bitTimeReg_toNat {bt : Nat} (h : bt < 2 ^ 32) : (bitTimeReg bt).toNat = bt := by
  rw [bitTimeReg, if_pos h, BitVec.toNat_ofNat, Nat.mod_eq_of_lt h]

/-- An INIT that passes its checks runs (40_bit_timing.md R60). -/
theorem initWith_run (p : Params) (f : CmdFields) {s : State} (hb : s.busy = false) (hi : s.initDone = false)
    (hbaud : s.baud ≠ 0) (hbt : bitTicks p s.baud.toNat ≠ 0) :
    initWith p f s = .next (runInit p (bitTicks p s.baud.toNat) (storeCmd (.init f) s)) := by
  simp only [initWith, hb, hi, hbaud, hbt, Bool.false_eq_true, if_false]

/-- Settles O10: all of INIT's checks pass, and its effect in one record is the state stated. -/
theorem initSetsUp : Obligations.InitSetsUp := by
  unfold Obligations.InitSetsUp
  intro p f s hb hi hbaud hbt
  have hrun := initWith_run p f hb hi hbaud (Nat.ne_of_gt hbt)
  rw [runInit_eq] at hrun
  refine ⟨bitTimeReg (bitTicks p s.baud.toNat), bitTimeReg_toNat, hrun, ?_⟩
  rintro rfl
  exact hrun

/-- A command leaves the timing values, but for an INIT that sets INIT_DONE (40_bit_timing.md R63). -/
theorem exec_timing {i : Instr} {s t : State} (h : exec i s = .next t) :
    t.bitTime = s.bitTime ∧ t.breakTime = s.breakTime ∧ t.guardTime = s.guardTime ∨
      (∃ f, i = .init f) ∧ s.initDone = false ∧ t.initDone = true := by
  obtain ⟨c, -, rfl⟩ | ⟨-, r, rfl⟩ | ⟨-, hdone, -, hinit, -, rfl⟩ | ⟨-, -, rfl⟩ | ⟨-, -, f, -, -, rfl⟩ |
    ⟨-, -, f, -, -, rfl⟩ | ⟨-, -, -, rfl⟩ := exec_cases h
  · exact .inl ⟨rfl, rfl, rfl⟩
  · exact .inl ⟨rfl, rfl, rfl⟩
  · exact .inr ⟨hinit, hdone, rfl⟩
  · exact .inl ⟨rfl, rfl, rfl⟩
  · exact .inl ⟨rfl, rfl, rfl⟩
  · exact .inl ⟨rfl, rfl, rfl⟩
  · exact .inl ⟨rfl, rfl, rfl⟩

/-- Settles O37: of all a step can do, only INIT's command and the reset touch the timing values. -/
theorem timingOnlyByInit : Obligations.TimingOnlyByInit := by
  unfold Obligations.TimingOnlyByInit
  intro s t h
  obtain ⟨es, n, ⟨v, pins, c, rfl⟩ | ⟨-, c, v, rfl⟩ | ⟨i, hi, he⟩ | ⟨-, b, d, rfl⟩ | ⟨-, hm⟩ | ⟨e, -, rfl⟩ |
    ⟨after, hev, rfl⟩⟩ := step_moves h
  · exact .inl ⟨rfl, rfl, rfl⟩
  · exact .inl ⟨rfl, rfl, rfl⟩
  · obtain hsame | ⟨⟨f, rfl⟩, hdone⟩ := exec_timing he
    · exact .inl hsame
    · exact .inr (.inl ⟨⟨f, hi⟩, hdone⟩)
  · exact .inl ⟨rfl, rfl, rfl⟩
  · cases hm <;> exact .inl ⟨rfl, rfl, rfl⟩
  · obtain ⟨env, bus, hd⟩ := envStep_frame e { s with events := es, draws := n }
    rw [hd]
    exact .inl ⟨rfl, rfl, rfl⟩
  · exact .inr (.inr ⟨⟨after, hev⟩, rfl, rfl, rfl⟩)

/-! ### Characters -/

@[simp] theorem charBits_length (b : Byte) : (charBits b).length = 10 := by
  simp [charBits]

/-- Data bit `i` of a character, bit 0 first (40_bit_timing.md R65). -/
theorem charBits_getElem?_data (b : Byte) {i : Nat} (hi : i < 8) : (charBits b)[i + 1]? = some (b.getLsbD i) := by
  simp [charBits, List.getElem?_append, hi]

/-- The high stop bit ends a character's low start: at most the start bit and eight data bits (40_bit_timing.md R67). -/
theorem charBits_low_le (b : Byte) : ((charBits b).takeWhile (fun level => !level)).length ≤ 9 := by
  rw [charBits, List.takeWhile_append]
  split
  · simp
  · exact (List.takeWhile_sublist _).length_le.trans (by simp)

/-! ### Characters in a row -/

theorem spacedBits_nil : spacedBits [] = [] := rfl

theorem spacedBits_cons (gap : Nat) (b : Byte) (rest : List (Nat × Byte)) :
    spacedBits ((gap, b) :: rest) = List.replicate gap true ++ charBits b ++ spacedBits rest := rfl

/-- Ten bit-times for each character, and the gaps (40_bit_timing.md R66). -/
theorem spacedBits_length (chars : List (Nat × Byte)) :
    (spacedBits chars).length = 10 * chars.length + (chars.map Prod.fst).sum := by
  induction chars with
  | nil => rfl
  | cons c rest ih =>
    obtain ⟨gap, b⟩ := c
    simp only [spacedBits_cons, List.length_append, List.length_replicate, charBits_length, ih, List.length_cons,
      List.map_cons, List.sum_cons]
    omega

/-! ### The header -/

/-- The header, from the break to the PID (40_bit_timing.md R66). -/
theorem headerBits_eq (b d gap : Nat) (pid : Byte) :
    headerBits b d gap pid =
      List.replicate b false ++ (List.replicate d true ++ (charBits Config.sync ++
        (List.replicate gap true ++ charBits pid))) := by
  simp only [headerBits, spacedBits_cons, spacedBits_nil, List.replicate_zero, List.nil_append, List.append_nil,
    List.append_assoc]

theorem headerBits_length (b d gap : Nat) (pid : Byte) : (headerBits b d gap pid).length = b + d + 20 + gap := by
  simp only [headerBits_eq, List.length_append, List.length_replicate, charBits_length]
  omega

/-- SYNC on the line: levels that alternate from the start bit on (40_bit_timing.md R66). -/
theorem charBits_sync :
    charBits Config.sync = [false, true, false, true, false, true, false, true, false, true] := by decide

/-- The level at each bit-time of the header (40_bit_timing.md R66). -/
theorem headerBits_getElem? (b d gap t : Nat) (pid : Byte) :
    (headerBits b d gap pid)[t]? =
      if t < b then some false
      else if t < b + d then some true
      else if t < b + d + 10 then (charBits Config.sync)[t - (b + d)]?
      else if t < b + d + 10 + gap then some true
      else (charBits pid)[t - (b + d + 10 + gap)]? := by
  have shift {n k : Nat} (h : ¬ t < n) : t - n < k ↔ t < n + k := Nat.sub_lt_iff_lt_add' (Nat.le_of_not_lt h)
  simp only [headerBits_eq, List.getElem?_append, List.length_replicate, charBits_length, Nat.sub_sub,
    List.getElem?_replicate]
  refine ite_congr rfl (fun h => if_pos h) fun hbreak => ?_
  refine ite_congr (propext (shift hbreak)) (fun h => if_pos ((shift hbreak).mpr h)) fun hdelim => ?_
  refine ite_congr (propext (shift hdelim)) (fun _ => rfl) fun hsync => ?_
  exact ite_congr (propext (shift hsync)) (fun h => if_pos ((shift hsync).mpr h)) fun _ => rfl

/-! ### Break and wakeup -/

/-- BREAK_BITS of this implementation is 13 or 14, longer than a character's low start (40_bit_timing.md R67). -/
theorem breakBits_gt : 9 < Config.params.breakBits := by
  simp only [Config.params, Params.clamp]
  split <;> decide

/-- Settles O54: a character bit by bit, the header and the responses as characters in a row, break and wakeup by their
parameters. -/
theorem waveforms : Obligations.Waveforms := by
  unfold Obligations.Waveforms
  refine ⟨rfl, fun b => ⟨charBits_length b, rfl, rfl, fun i => charBits_getElem?_data b, charBits_low_le b⟩,
    fun b d gap t pid => ?_, headerBits_length, fun bytes chk => ?_, spacedBits_cons, fun p bt => ⟨?_, rfl⟩,
    breakBits_gt⟩
  · rw [headerBits_getElem?, charBits_sync]
  · rw [responseBits, spacedBits_length, List.length_append, List.length_singleton]
  · simp only [breakWave, breakTicks, delimTicks, BitVec.toNat_ofNat]

end Sys2Proof.Machine
end

section
/-! The frame encoder's arithmetic: the parity of the PID, the accumulator modulo 255, the checksum byte and what a
receiver accepts, and the downgrade of the diagnostic identifiers (spec/41_frame_encoder.md). -/

namespace Sys2Proof.Machine

/-! ### The protected identifier -/

/-- The PID as a number: the two parity bits above the identifier (41_frame_encoder.md R70). -/
theorem encodePid_toNat (id : FrameId) :
    (encodePid id).toNat = id.toNat + 64 * (pidP0 id).toNat + 128 * (pidP1 id).toNat := by
  rw [encodePid, BitVec.append_assoc, BitVec.toNat_cast, toNat_append_add, toNat_append_add, flagBit_toNat,
    flagBit_toNat]
  omega

/-- The low six bits of the PID are the identifier (41_frame_encoder.md R71). -/
theorem encodePid_mod (id : FrameId) : (encodePid id).toNat % 64 = id.toNat := by
  have := id.isLt
  rw [encodePid_toNat]
  omega

theorem encodePid_getLsbD_six (id : FrameId) : (encodePid id).getLsbD 6 = pidP0 id := by
  rw [encodePid, BitVec.getLsbD_append, if_neg (by decide), BitVec.getLsbD_append, if_pos (by decide), flagBit_getLsbD]
  rfl

theorem encodePid_getLsbD_seven (id : FrameId) : (encodePid id).getLsbD 7 = pidP1 id := by
  rw [encodePid, BitVec.getLsbD_append, if_neg (by decide), BitVec.getLsbD_append, if_neg (by decide), flagBit_getLsbD]
  rfl

/-- A PID of 0 would be identifier 0's, whose P1 is 1 (41_frame_encoder.md R71). -/
theorem encodePid_ne_zero (id : FrameId) : encodePid id ≠ 0x00#8 := by
  intro h
  have hid : id = 0x00#6 := by
    apply BitVec.eq_of_toNat_eq
    rw [← encodePid_mod, h]
    rfl
  subst hid
  exact absurd h (by decide)

/-- Settles O22: the parity bits by their places, the rest by the low six bits. -/
theorem pidParity : Obligations.PidParity := by
  unfold Obligations.PidParity
  refine ⟨fun id => ⟨encodePid_getLsbD_six id, encodePid_getLsbD_seven id, encodePid_mod id, encodePid_ne_zero id⟩,
    fun a b h => ?_, by decide⟩
  apply BitVec.eq_of_toNat_eq
  rw [← encodePid_mod a, ← encodePid_mod b, h]

/-! ### The accumulator -/

/-- One accumulation step as arithmetic (41_frame_encoder.md R74). -/
theorem acc_toNat (s b : Byte) :
    (acc s b).toNat = if s.toNat + b.toNat ≤ 0xFF then s.toNat + b.toNat else s.toNat + b.toNat - 0xFF := by
  have hs := s.isLt
  have hb := b.isLt
  simp only [acc, BitVec.toNat_setWidth, BitVec.toNat_add, BitVec.toNat_ushiftRight, Nat.shiftRight_eq_div_pow]
  split <;> omega

/-- Settles O23: the step's arithmetic, and the corner cases by evaluation. -/
theorem accStep : Obligations.AccStep := by
  unfold Obligations.AccStep
  exact ⟨acc_toNat, by decide⟩

theorem acc_toNat_mod (s b : Byte) : (acc s b).toNat % 255 = (s.toNat + b.toNat) % 255 := by
  rw [acc_toNat]
  split <;> omega

theorem acc_toNat_eq_zero_iff (s b : Byte) : (acc s b).toNat = 0 ↔ s.toNat = 0 ∧ b.toNat = 0 := by
  rw [acc_toNat]
  split <;> omega

/-- The accumulator is the plain sum modulo 255 (41_frame_encoder.md R76). -/
theorem accum_toNat_mod (seed : Byte) (d : List Byte) :
    (accum seed d).toNat % 255 = (seed.toNat + (d.map BitVec.toNat).sum) % 255 := by
  induction d generalizing seed with
  | nil => rfl
  | cons b rest ih =>
    rw [accum, ih, List.map_cons, List.sum_cons, Nat.add_mod, acc_toNat_mod, ← Nat.add_mod, Nat.add_assoc]

/-- The accumulator is 0 only if nothing but 0 was added (41_frame_encoder.md R76). -/
theorem accum_toNat_eq_zero_iff (seed : Byte) (d : List Byte) :
    (accum seed d).toNat = 0 ↔ seed.toNat = 0 ∧ ∀ b ∈ d, b.toNat = 0 := by
  induction d generalizing seed with
  | nil => simp [accum]
  | cons b rest ih => rw [accum, ih, acc_toNat_eq_zero_iff, List.forall_mem_cons, and_assoc]

/-- Settles O24: both facts, by induction over the bytes. -/
theorem accumRange : Obligations.AccumRange := by
  unfold Obligations.AccumRange
  exact fun seed d => ⟨accum_toNat_mod seed d, accum_toNat_eq_zero_iff seed d⟩

/-! ### The deferred fold -/

theorem foldRounds_mod (n total : Nat) : foldRounds n total % 255 = total % 255 := by
  induction n generalizing total with
  | zero => rfl
  | succ n ih =>
    rw [foldRounds]
    split
    · rw [ih]
      omega
    · rfl

theorem foldRounds_eq_zero_iff (n total : Nat) : foldRounds n total = 0 ↔ total = 0 := by
  induction n generalizing total with
  | zero => rfl
  | succ n ih =>
    rw [foldRounds]
    split
    · rw [ih]
      omega
    · rfl

/-- As many rounds as the sum itself bring it into one byte (41_frame_encoder.md R80). -/
theorem foldRounds_le {n total : Nat} (h : total ≤ n) : foldRounds n total ≤ 0xFF := by
  induction n generalizing total with
  | zero => exact h.trans (Nat.zero_le _)
  | succ n ih =>
    rw [foldRounds]
    split
    · exact ih (by omega)
    · omega

/-- Folding once at the end is accumulating byte by byte: both lie in one byte, agree modulo 255, and are 0 together
(41_frame_encoder.md R80). -/
theorem foldSum_eq_accum (seed : Byte) (d : List Byte) :
    foldSum (seed.toNat + (d.map BitVec.toNat).sum) = (accum seed d).toNat := by
  have hmod : foldSum (seed.toNat + (d.map BitVec.toNat).sum) % 255 = (accum seed d).toNat % 255 :=
    (foldRounds_mod _ _).trans (accum_toNat_mod seed d).symm
  have hzero : foldSum (seed.toNat + (d.map BitVec.toNat).sum) = 0 ↔ (accum seed d).toNat = 0 := by
    rw [foldSum, foldRounds_eq_zero_iff, accum_toNat_eq_zero_iff, Nat.add_eq_zero_iff, List.sum_eq_zero_iff,
      List.forall_mem_map]
  have hle : foldSum (seed.toNat + (d.map BitVec.toNat).sum) ≤ 0xFF := foldRounds_le le_rfl
  have hlt := (accum seed d).isLt
  omega

/-- Settles O25: the checksum byte is one more byte of the sequence. -/
theorem deferredFold : Obligations.DeferredFold := by
  unfold Obligations.DeferredFold
  intro seed r c
  rw [← accum_append, ← foldSum_eq_accum, List.map_append, List.sum_append, List.map_singleton, List.sum_singleton,
    Nat.add_assoc]

/-! ### The checksum byte -/

theorem responseValid_iff (seed : Byte) (r : List Byte) (c : Byte) :
    responseValid seed r c = true ↔ acc (accum seed r) c = 0xFF#8 := beq_iff_eq

theorem computeChecksum_toNat (seed : Byte) (d : List Byte) :
    (computeChecksum seed d).toNat = 0xFF - (accum seed d).toNat := BitVec.toNat_not

/-- The sum is 0xFF for the byte that makes it up without a carry, and for the negative zero 0xFF + 0xFF
(41_frame_encoder.md R81). -/
theorem acc_eq_ff_iff (a c : Byte) : acc a c = 0xFF#8 ↔ c = ~~~a ∨ a = 0xFF#8 ∧ c = 0xFF#8 := by
  have ha := a.isLt
  have hc := c.isLt
  simp only [← BitVec.toNat_inj, acc_toNat, BitVec.toNat_not, BitVec.toNat_ofNat]
  split <;> omega

/-- Settles O26: validity is a sum of 0xFF, and the checksum byte is the complement of the accumulator. -/
theorem checksumRoundTrip : Obligations.ChecksumRoundTrip := by
  unfold Obligations.ChecksumRoundTrip
  intro seed d
  simp only [responseValid_iff, acc_eq_ff_iff]
  exact ⟨.inl rfl, fun c => Iff.rfl⟩

/-- Injection adds 1 to an even byte and takes 1 from an odd one (41_frame_encoder.md R78). -/
theorem injectError_toNat (chk : Byte) :
    (injectError true chk).toNat = if chk.toNat % 2 = 0 then chk.toNat + 1 else chk.toNat - 1 := by
  simp only [injectError, if_true, BitVec.toNat_xor]
  split
  case isTrue heven => exact Nat.xor_one_of_even (Nat.even_iff.mpr heven)
  case isFalse hodd => exact Nat.xor_one_of_odd (Nat.odd_iff.mpr (by omega))

/-- The sum over an injected checksum byte is one more or one less than 0xFF (41_frame_encoder.md R82). -/
theorem acc_injectError (seed : Byte) (d : List Byte) :
    acc (accum seed d) (injectError true (computeChecksum seed d)) =
      if (computeChecksum seed d).toNat % 2 = 0 then 0x01#8 else 0xFE#8 := by
  have ha := (accum seed d).isLt
  have hchk := computeChecksum_toNat seed d
  apply BitVec.eq_of_toNat_eq
  rw [acc_toNat, injectError_toNat]
  by_cases heven : (computeChecksum seed d).toNat % 2 = 0
  · rw [if_pos heven, if_pos heven, if_neg (by omega), BitVec.toNat_ofNat]
    omega
  · rw [if_neg heven, if_neg heven, if_pos (by omega), BitVec.toNat_ofNat]
    omega

/-- Settles O27: the final sum by the parity of the right byte, never 0xFF. -/
theorem injectionDetected : Obligations.InjectionDetected := by
  unfold Obligations.InjectionDetected
  intro seed d
  refine ⟨?_, acc_injectError seed d⟩
  rw [← Bool.not_eq_true, responseValid_iff, acc_injectError]
  split <;> decide

/-! ### The diagnostic identifiers -/

/-- The diagnostic identifiers are classic whatever ENH says (41_frame_encoder.md R73). -/
theorem enhEffective_diagnostic {id : FrameId} (h : id = 0x3C#6 ∨ id = 0x3D#6) (enh : Bool) :
    enhEffective enh id = false := by
  obtain rfl | rfl := h
  · exact Bool.and_false enh
  · exact Bool.and_false enh

/-- ENH enters the latched command as the effective mode alone (42_transmit.md R86). -/
theorem latchFrame_congr_enh {id : FrameId} {enh enh' : Bool} (h : enhEffective enh id = enhEffective enh' id)
    (op : FrameOp) (txdp : Bool) (len : BitVec 4) (inj : Bool) (d : Vector Byte 8) :
    latchFrame op id txdp len enh inj d = latchFrame op id txdp len enh' inj d := by
  simp only [latchFrame, h]

theorem runTransmit_congr_enh {f : CmdFields} {enh enh' : Bool}
    (h : enhEffective enh f.id = enhEffective enh' f.id) :
    runTransmit { f with enh := enh } = runTransmit { f with enh := enh' } := by
  funext s
  simp only [runTransmit, startFrame_eq, latchFrame_congr_enh h]

theorem runRequest_congr_enh {f : CmdFields} {enh enh' : Bool} (n : Nat)
    (h : enhEffective enh f.id = enhEffective enh' f.id) :
    runRequest n { f with enh := enh } = runRequest n { f with enh := enh' } := by
  funext s
  simp only [runRequest, startRequest_eq, latchFrame_congr_enh h, h]

/-- The engine step of a phase whose function never reads CMD does not read it. -/
theorem engineStep_cmd_of_phase {p : Phase} {eng : State → State}
    (heng : ∀ {s : State}, s.phase = p → engineStep s = eng s) (hblind : CmdBlind eng) {s : State} (hp : s.phase = p)
    (w : Word) : engineStep { s with cmd := w } = { engineStep s with cmd := w } := by
  rw [heng hp]
  exact (heng (s := { s with cmd := w }) hp).trans (hblind s w)

/-- No engine step reads or changes CMD (10_state.md R15). -/
theorem engineStep_cmdBlind : CmdBlind engineStep := by
  intro s w
  obtain ⟨p, hp⟩ : ∃ p, s.phase = p := ⟨_, rfl⟩
  cases p
  case idle => exact engineStep_cmd_of_phase (eng := id) engineStep_idle (fun _ _ => rfl) hp w
  case txArm => exact engineStep_cmd_of_phase engineStep_txArm (fun _ _ => by unfold engTxArm; split <;> rfl) hp w
  case txWake => exact engineStep_cmd_of_phase engineStep_txWake (fun _ _ => rfl) hp w
  case txHdr => exact engineStep_cmd_of_phase engineStep_txHdr (fun _ _ => rfl) hp w
  case txData => exact engineStep_cmd_of_phase engineStep_txData (fun _ _ => by unfold engTxData; split <;> rfl) hp w
  case txChk => exact engineStep_cmd_of_phase engineStep_txChk (fun _ _ => by unfold engTxChk; split <;> rfl) hp w
  case txWaitc =>
    refine engineStep_cmd_of_phase engineStep_txWaitc (fun s w => ?_) hp w
    unfold engTxWaitc
    split
    · split <;> rfl
    · rfl
  case txRxoffWait =>
    exact engineStep_cmd_of_phase engineStep_txRxoffWait (fun _ _ => by unfold engTxRxoffWait; split <;> rfl) hp w
  case txColl =>
    refine engineStep_cmd_of_phase engineStep_txColl (fun s w => ?_) hp w
    simp only [engTxColl, countCollision_eq]
    split
    · rfl
    · rfl
    · split <;> rfl
  case rqData =>
    refine engineStep_cmd_of_phase engineStep_rqData (fun s w => ?_) hp w
    simp only [engRqData]
    cases poll s.env <;> rfl
  case rqChk =>
    refine engineStep_cmd_of_phase engineStep_rqChk (fun s w => ?_) hp w
    simp only [engRqChk, receiveChecksum_eq]
    cases poll s.env <;> rfl
  case rqClean => exact engineStep_cmd_of_phase engineStep_rqClean (fun _ _ => rfl) hp w
  case rqCleanWait =>
    exact engineStep_cmd_of_phase engineStep_rqCleanWait (fun _ _ => by unfold engRqCleanWait; split <;> rfl) hp w

/-- Settles O28: with one effective mode the two commands have one effect, and the engine never reads CMD. -/
theorem diagnosticDowngrade : Obligations.DiagnosticDowngrade := by
  unfold Obligations.DiagnosticDowngrade
  refine ⟨fun f s hid => ?_, fun w s => engineStep_cmdBlind s w⟩
  have henh : enhEffective true f.id = enhEffective false f.id :=
    (enhEffective_diagnostic hid true).trans (enhEffective_diagnostic hid false).symm
  constructor
  · simp only [exec, execTransmit, runTransmit_congr_enh henh]
    exact accept_agreeButCmd (runTransmit_cmdBlind _) _ _ _ s
  · simp only [exec, execRequest, requestWith, runRequest_congr_enh _ henh]
    exact accept_agreeButCmd (runRequest_cmdBlind _ _) _ _ _ s

/-! ### The verdict of a REQUEST -/

/-- In RQ_CHK a sum of 0xFF over the byte that arrives is the response's validity: the accumulator stands for the seed
and the LEN bytes stored (41_frame_encoder.md R79). -/
theorem Inv.responseValid_iff_of_rqChk {s : State} (h : Inv s) (hp : s.phase = .rqChk) (c : Byte) :
    responseValid (checksumSeed s.latch.enhEff s.latch.pid) (s.data.toList.take s.latch.len.toNat) c = true ↔
      acc s.sum c = 0xFF#8 := by
  have hphase := h.phaseInv (h.busyIff.mpr (by simp [hp]))
  have hop : s.latch.op = .rq := hphase.receivePhase (by rw [hp]; rfl)
  rw [responseValid_iff, hphase.sumEq hop (.inr (.inr hp)), hphase.rqChkPhase hp]

/-- Settles O52: RQ_CHK judges by the sum, and RQ_CLEAN_WAIT reports what the invariant says is pending. -/
theorem requestVerdict : Obligations.RequestVerdict := by
  unfold Obligations.RequestVerdict
  refine ⟨fun s c h hp hpoll => ?_, fun s h hp hoff => ?_⟩
  · simp only [h.responseValid_iff_of_rqChk hp, engineStep_rqChk_byte hp hpoll, receiveChecksum_eq, Counters.incMChk,
      and_self]
  · rw [engineStep_rqCleanWait hp, engRqCleanWait_eq hoff]
    exact ⟨rfl, (h.phaseInv (h.busyIff.mpr (by simp [hp]))).pendOk (.inr hp)⟩

end Sys2Proof.Machine
end

section
/-! The transmit path: how TRANSMIT starts its frame, the parameter errors it shares with REQUEST, each transmit phase's
whole step, and the phases' transition tables (spec/42_transmit.md). -/

namespace Sys2Proof.Machine

/-! ### The start of a TRANSMIT -/

/-- DP tells whether a response follows, so the payload under the checksum is DATA's first LEN bytes in both cases
(42_transmit.md R86). -/
theorem payload_take_transmit {dp : Bool} {len : Nat} (hlen : len ≤ 8) (hdp : dp = true ↔ len ≠ 0) (d : Vector Byte 8) :
    (payload .tx d).take (if dp then (BitVec.ofNat 4 len).toNat else 0) = d.toList.take len := by
  have hcount : (if dp then (BitVec.ofNat 4 len).toNat else 0) = len := by
    split
    next => rw [BitVec.toNat_ofNat]; omega
    next h => exact (not_ne_iff.mp (mt hdp.mpr h)).symm
  rw [hcount, payload]

/-- The latched command of a TRANSMIT (41_frame_encoder.md R73, R77, R78, 42_transmit.md R86). -/
theorem latchFrame_transmit {dp : Bool} {len : Nat} (hlen : len ≤ 8) (hdp : dp = true ↔ len ≠ 0) (id : FrameId)
    (enh inj : Bool) (d : Vector Byte 8) :
    latchFrame .tx id dp (BitVec.ofNat 4 len) enh inj d =
      { op := .tx, id := id, txdp := dp, len := BitVec.ofNat 4 len, enhEff := enhEffective enh id, inj := inj
        pid := encodePid id
        chkTx := ~~~ accum (if enh = true ∧ id.toNat < 0x3C then encodePid id else 0x00#8) (d.toList.take len) ^^^
          (if inj = true then 0x01#8 else 0x00#8) } := by
  simp only [latchFrame, payload_take_transmit hlen hdp, request_seed, injectError, computeChecksum]

/-- Settles O11: the parameters pass, and the frame's start in one record is the state stated. -/
theorem transmitStartsFrame : Obligations.TransmitStartsFrame := by
  unfold Obligations.TransmitStartsFrame
  intro f s hb hi hid hlen hdp
  rw [exec_transmit_starts hb hi (checkParams_eq_ok hid hlen hdp), startFrame_eq, latchFrame_transmit hlen hdp]
  rfl

/-! ### The parameter errors -/

theorem checkParams_badId {id : FrameId} (hid : 0x3E ≤ id.toNat) (dp : Bool) (len : Nat) :
    checkParams id dp len = .invalidRange :=
  if_pos hid

theorem checkParams_badDp {id : FrameId} {dp : Bool} {len : Nat} (hid : id.toNat < 0x3E)
    (hdp : ¬ (dp = true ↔ len ≠ 0)) : checkParams id dp len = .invalidParameter := by
  have hbne : (dp != decide (len ≠ 0)) = true := by
    rw [bne_iff_ne, ne_eq, Bool.eq_iff_iff, decide_eq_true_iff]
    exact hdp
  rw [checkParams, if_neg hid.not_ge, if_pos hbne]

theorem checkParams_badLen {id : FrameId} {dp : Bool} {len : Nat} (hid : id.toNat < 0x3E) (hlen : 8 < len) :
    checkParams id dp len = .invalidParameter := by
  rw [checkParams, if_neg hid.not_ge, if_pos hlen, ite_self]

theorem runTransmit_of_ne_ok {f : CmdFields} (hf : checkParams f.id f.dp f.len ≠ .ok) (s : State) :
    runTransmit f s = setResult (checkParams f.id f.dp f.len) s := by
  unfold runTransmit
  split
  next h => exact absurd h hf
  next => rfl

theorem runRequest_of_ne_ok {f : CmdFields} (hf : checkParams f.id f.dp f.len ≠ .ok) (n : Nat) (s : State) :
    runRequest n f s = setResult (checkParams f.id f.dp f.len) s := by
  unfold runRequest
  split
  next h => exact absurd h hf
  next => rfl

/-- A frame command that fails the check completes in its own step with the check's result (42_transmit.md R85). -/
theorem exec_parameterError {f : CmdFields} {s : State} {r : ResultCode} (hb : s.busy = false) (hi : s.initDone = true)
    (hf : checkParams f.id f.dp f.len = r) (hr : r ≠ .ok) :
    exec (.transmit f) s = .next { s with cmd := encode (.transmit f), result := r } ∧
      exec (.request f) s = .next { s with cmd := encode (.request f), result := r } := by
  subst hf
  exact ⟨(accept_run _ _ hb hi).trans (congrArg _ (runTransmit_of_ne_ok hr _)),
    (accept_run _ _ hb hi).trans (congrArg _ (runRequest_of_ne_ok hr _ _))⟩

/-- Settles O12: the check's answer in each of R85's cases, and what a frame command does with an answer but OK. -/
theorem parameterErrors : Obligations.ParameterErrors := by
  unfold Obligations.ParameterErrors
  intro f s hb hi
  exact ⟨fun hid => exec_parameterError hb hi (checkParams_badId hid _ _) nofun,
    fun hid hdp => exec_parameterError hb hi (checkParams_badDp hid hdp) nofun,
    fun hid hdp hlen => checkParams_eq_ok hid hlen hdp,
    fun hid _ hlen => exec_parameterError hb hi (checkParams_badLen hid hlen) nofun⟩

/-! ### The transition tables -/

/-- A command leaves the phase, or starts a frame (10_state.md R22, 42_transmit.md R86). -/
theorem exec_phase {i : Instr} {s t : State} (h : exec i s = .next t) :
    t.phase = s.phase ∨ sendsFrame i = true ∧ s.busy = false ∧ t.phase = .txArm := by
  obtain ⟨c, -, rfl⟩ | ⟨-, r, rfl⟩ | ⟨-, -, -, -, -, rfl⟩ | ⟨-, -, rfl⟩ | ⟨hb, -, f, rfl, -, rfl⟩ |
    ⟨hb, -, f, rfl, -, rfl⟩ | ⟨hb, -, ⟨f, rfl⟩, rfl⟩ := exec_cases h
  · exact .inl rfl
  · exact .inl rfl
  · rw [runInit_eq]
    exact .inl rfl
  · exact .inl rfl
  · exact .inr ⟨rfl, hb, rfl⟩
  · exact .inr ⟨rfl, hb, rfl⟩
  · exact .inr ⟨rfl, hb, rfl⟩

theorem Phase.edge_ite {p q r : Phase} {c : Prop} [Decidable c] (hq : p.edge q = true) (hr : p.edge r = true) :
    p.edge (if c then q else r) = true := by
  split
  · exact hq
  · exact hr

/-- An engine step holds, or follows an edge of the tables (42_transmit.md R95, 43_request.md R108). -/
theorem EngineMove.phase {s t : State} (h : EngineMove s t) :
    t.phase = s.phase ∨ Phase.edge s.phase t.phase = true := by
  cases h with
  | hold => exact .inl rfl
  | arm hp => right; rw [hp]; exact Phase.edge_ite rfl rfl
  | header hp => right; rw [hp]; exact Phase.edge_ite rfl rfl
  | data hp => right; rw [hp]; exact Phase.edge_ite rfl rfl
  | await hp _ => right; rw [hp]; exact Phase.edge_ite rfl rfl
  | receiveData hp _ _ => right; rw [hp]; exact Phase.edge_ite rfl rfl
  | timeout hp => right; obtain hp | hp := hp <;> rw [hp] <;> rfl
  | frameError hp => right; obtain hp | hp := hp <;> rw [hp] <;> rfl
  | _ hp => right; rw [hp]; rfl

/-- Settles O35: only a frame's start, an engine step and a reset move the phase, an engine step along an edge. -/
theorem phaseTable : Obligations.PhaseTable := by
  unfold Obligations.PhaseTable
  intro s t h
  obtain ⟨es, n, ⟨v, pins, c, rfl⟩ | ⟨_, c, v, rfl⟩ | ⟨i, hi, he⟩ | ⟨_, b, d, rfl⟩ | ⟨hev, hm⟩ | ⟨e, _, rfl⟩ |
    ⟨after, hev, rfl⟩⟩ := step_moves h
  · exact .inl rfl
  · exact .inl rfl
  · obtain hp | ⟨hf, hb, hp⟩ := exec_phase he
    · exact .inl hp
    · exact .inr (.inr (.inl ⟨⟨i, hi, hf⟩, hb, hp⟩))
  · exact .inl rfl
  · obtain hp | hedge := hm.phase
    · exact .inl hp
    · exact .inr (.inl ⟨hev, hedge⟩)
  · obtain ⟨env, bus, hd⟩ := envStep_frame e { s with events := es, draws := n }
    rw [hd]
    exact .inl rfl
  · exact .inr (.inr (.inr ⟨⟨after, hev⟩, rfl⟩))

/-! ### The header and the line -/

/-- No byte is sent before the break's trigger or while a waveform is owed (42_transmit.md R89; log 9). -/
theorem envStep_slot_hold {s : State} (h : s.env.txStarted = false ∨ s.env.linePending ≠ []) (o : Byte) :
    envStep (.slot o) s = s := by
  have hm := envStep_move (.slot o) s
  generalize envStep (.slot o) s = t at hm ⊢
  cases hm with
  | hold => rfl
  | slot _ b rest hst hl _ => simp [hst, hl] at h

theorem envStep_lineDone_wake {s : State} {rest : List LineItem} (h : s.env.linePending = .wake :: rest) :
    envStep .lineDone s = { s with env := { s.env with linePending := rest }, bus := s.bus ++ [.wake] } := by
  simp only [envStep, envLineDone, h]

theorem envStep_lineDone_break {s : State} {rest : List LineItem} (h : s.env.linePending = .brk :: rest) :
    envStep .lineDone s =
      { s with env := { s.env with linePending := rest, txStarted := true }, bus := s.bus ++ [.brk] } := by
  simp only [envStep, envLineDone, h]

theorem engTxArm_hold {s : State} (h : ¬ (s.env.txIdle = true ∧ s.env.rxBlocked = true)) : engTxArm s = s :=
  if_neg (by rwa [Bool.and_eq_true])

/-- Settles O29: the three phases' records, TX_ARM's with its hold, and the line's steps on what they order. -/
theorem engineHeader : Obligations.EngineHeader := by
  unfold Obligations.EngineHeader
  refine fun s => ⟨fun o h => envStep_slot_hold h o, fun _ => envStep_lineDone_wake, fun _ => envStep_lineDone_break,
    fun hp => ?_, fun hp => (engineStep_txWake hp).trans (engTxWake_eq s),
    fun hp => (engineStep_txHdr hp).trans (engTxHdr_eq s)⟩
  rw [engineStep_txArm hp]
  by_cases h : s.env.txIdle = true ∧ s.env.rxBlocked = true
  · rw [engTxArm_eq h.1 h.2, if_pos h]
  · rw [engTxArm_hold h, if_neg h]

/-! ### The bytes and their end -/

/-- Settles O30: in each phase the flag awaited decides between the phase's record and a hold. -/
theorem engineSend : Obligations.EngineSend := by
  unfold Obligations.EngineSend
  refine fun s => ⟨fun hp => ?_, fun hp => ?_, fun hp => ?_, fun hp => ?_⟩
  · rw [engineStep_txData hp]
    split
    next h => exact engTxData_eq h
    next h => exact if_neg h
  · rw [engineStep_txChk hp]
    split
    next h => exact engTxChk_eq h
    next h => exact if_neg h
  · rw [engineStep_txWaitc hp]
    split
    next h =>
      split
      next hd => exact engTxWaitc_response_eq h hd
      next hd => exact engTxWaitc_bare_eq h (eq_false_of_ne_true hd)
    next h => exact if_neg h
  · rw [engineStep_txRxoffWait hp]
    split
    next h => exact engTxRxoffWait_eq h
    next h => exact if_neg h

/-! ### The collision check -/

/-- COLL stays until a FLUSH, which neither the engine's steps nor the environment's issue (10_state.md R30 duty 2). -/
theorem coll_sticky {s : State} (hc : s.env.coll = true) :
    (engineStep s).env.coll = true ∧ ∀ e : EnvEvent, (envStep e s).env.coll = true := by
  obtain ⟨hengine, -⟩ := (engineStep_move s).flags
  refine ⟨hengine.trans hc, fun e => ?_⟩
  obtain h | ⟨h, -⟩ := (envStep_move e s).coll
  · exact h.trans hc
  · exact h

/-- Settles O31: COLL decides in TX_COLL for each of the three commands, and it is sticky. -/
theorem engineCollision : Obligations.EngineCollision := by
  unfold Obligations.EngineCollision
  refine ⟨fun s hc => coll_sticky hc, fun s hp => ?_⟩
  rw [engineStep_txColl hp]
  refine ⟨fun hop => ?_, fun hop => ?_, fun hop => ?_⟩
  · rw [engTxColl_transmit_eq hop]
    cases hc : s.env.coll <;> simp [collResult, hc, Counters.incMConf]
  · rw [engTxColl_sleep_eq hop]
    cases hc : s.env.coll <;> simp [collResult, hc, Counters.incMConf]
  · cases hc : s.env.coll
    · have hlen : 0 < s.latch.len.toNat ↔ s.latch.len ≠ 0 := by bv_omega
      simp only [engTxColl_clear_eq hop hc, hlen, Bool.false_eq_true, if_false]
    · rw [engTxColl_collided_eq hop hc]
      rfl

end Sys2Proof.Machine
end

section
/-! The receive path: how REQUEST starts its frame, the receive poll's priority, and each receive phase's whole step
(spec/43_request.md). -/

namespace Sys2Proof.Machine

/-! ### The start of a REQUEST -/

/-- Settles O13: the parameters pass, and the request's start in one record is the state stated. -/
theorem requestStartsFrame : Obligations.RequestStartsFrame := by
  unfold Obligations.RequestStartsFrame
  intro f s hb hi hid hlen hdp
  refine ⟨(latchFrame .rq f.id false (BitVec.ofNat 4 f.len) f.enh false s.data).chkTx, ?_⟩
  rw [exec_request_starts hb hi (checkParams_eq_ok hid hlen hdp), startRequest_eq, request_seed]
  rfl

/-! ### The receive poll -/

/-- RXDATAV shows that the receive FIFO holds a byte (10_state.md R28). -/
theorem Env.rxDataV_iff (e : Env) : e.rxDataV = true ↔ e.rxFifo ≠ [] := by
  rw [Env.rxDataV, Bool.not_eq_true', List.isEmpty_eq_false_iff]

theorem poll_of_tmoUf {e : Env} (ht : e.tmoUf = true) : poll e = .tmo := if_pos ht

theorem poll_of_error {e : Env} (ht : e.tmoUf = false) (h : e.ferr = true ∨ e.ovf = true) : poll e = .err := by
  rw [poll, if_neg (ne_true_of_eq_false ht), if_pos (Bool.or_eq_true_iff.mpr h)]

theorem poll_of_head {e : Env} {b : Byte} {rest : List Byte} (ht : e.tmoUf = false) (hf : e.ferr = false)
    (ho : e.ovf = false) (hq : e.rxFifo = b :: rest) : poll e = .byte b := by
  simp [poll, ht, hf, ho, hq]

theorem poll_of_empty {e : Env} (ht : e.tmoUf = false) (hf : e.ferr = false) (ho : e.ovf = false)
    (hq : e.rxFifo = []) : poll e = .none := by
  simp [poll, ht, hf, ho, hq]

/-- The poll answers as soon as one of its four flags is 1 (43_request.md R103). -/
theorem poll_ne_none_iff (e : Env) :
    poll e ≠ .none ↔ e.tmoUf = true ∨ e.ferr = true ∨ e.ovf = true ∨ e.rxDataV = true := by
  rw [e.rxDataV_iff]
  cases ht : e.tmoUf
  case true => simp [poll_of_tmoUf ht]
  case false =>
    by_cases herr : e.ferr = true ∨ e.ovf = true
    · simp [poll_of_error ht herr, ← or_assoc, herr]
    · obtain ⟨hf, ho⟩ : e.ferr = false ∧ e.ovf = false := by simpa using herr
      cases hq : e.rxFifo with
      | nil => simp [poll_of_empty ht hf ho hq, hf, ho]
      | cons b rest => simp [poll_of_head ht hf ho hq]

/-! ### The phases that poll -/

section
variable {s : State} (hp : s.phase = .rqData ∨ s.phase = .rqChk)
include hp

theorem engineStep_poll_none (h : poll s.env = .none) : engineStep s = s := by
  obtain hp | hp := hp
  · rw [engineStep_rqData hp, engRqData, h]
  · rw [engineStep_rqChk hp, engRqChk, h]

theorem engineStep_poll_byte_acts {b : Byte} (h : poll s.env = .byte b) :
    (engineStep s).acts = s.acts ++ [.rxPop] := by
  obtain hp | hp := hp
  · rw [engineStep_rqData_byte hp h, receiveData_eq]
  · rw [engineStep_rqChk_byte hp h, receiveChecksum_eq]

/-- A phase that polls holds exactly while the poll answers none: a timeout or an error moves it to RQ_CLEAN, and a byte
is popped (43_request.md R103). -/
theorem engineStep_poll_eq_self_iff : engineStep s = s ↔ poll s.env = .none := by
  refine ⟨fun h => ?_, engineStep_poll_none hp⟩
  have hclean : (engineStep s).phase ≠ .rqClean := by
    rw [h]
    obtain hp | hp := hp <;> simp [hp]
  cases hpoll : poll s.env with
  | none => rfl
  | tmo => exact absurd (congrArg State.phase (engineStep_poll_timeout hp hpoll)) hclean
  | err => exact absurd (congrArg State.phase (engineStep_poll_error hp hpoll)) hclean
  | byte b =>
    have hacts := engineStep_poll_byte_acts hp hpoll
    simp [h] at hacts

/-- A timeout or an error takes no waiting byte and issues no action (43_request.md R103). -/
theorem engineStep_poll_fault (h : s.env.tmoUf = true ∨ s.env.ferr = true ∨ s.env.ovf = true) :
    (engineStep s).env = s.env ∧ (engineStep s).acts = s.acts := by
  cases ht : s.env.tmoUf
  case true =>
    rw [engineStep_poll_timeout hp (poll_of_tmoUf ht)]
    exact ⟨rfl, rfl⟩
  case false =>
    have herr : s.env.ferr = true ∨ s.env.ovf = true := by simpa [ht] using h
    rw [engineStep_poll_error hp (poll_of_error ht herr)]
    exact ⟨rfl, rfl⟩

end

/-- Settles O32: the step of a phase that polls turns on the poll's answer, and the flags give the answer in their
order. -/
theorem pollPriority : Obligations.PollPriority := by
  unfold Obligations.PollPriority
  exact ⟨fun s hp => ⟨(engineStep_poll_eq_self_iff hp).not.trans (poll_ne_none_iff s.env), engineStep_poll_fault hp⟩,
    fun e => ⟨e.rxDataV_iff, poll_of_tmoUf, poll_of_error, fun _ _ => poll_of_head, poll_of_empty⟩⟩

/-- Settles O33: the poll's outcomes in the two phases that poll, then RQ_CLEAN's record and RQ_CLEAN_WAIT's wait. -/
theorem engineReceive : Obligations.EngineReceive := by
  unfold Obligations.EngineReceive
  refine fun s => ⟨fun hp => ⟨engineStep_poll_none hp, engineStep_poll_timeout hp, engineStep_poll_error hp⟩,
    fun hp b hpoll => (engineStep_rqData_byte hp hpoll).trans (receiveData_eq b s), fun hp c hpoll => ?_,
    fun hp => (engineStep_rqClean hp).trans (engRqClean_eq s), engineStep_rqCleanWait⟩
  rw [engineStep_rqChk_byte hp hpoll, receiveChecksum_eq]
  split
  · rfl
  · rfl

end Sys2Proof.Machine
end

section
/-! The peer-status detector, the error counters and their writers, SLEEP and RESET_COUNTERS
(spec/44_counters_sleep.md). -/

namespace Sys2Proof.Machine

/-! ### One bit of the sampled levels, one counter -/

/-- Setting a level sets that bit and keeps the others. -/
theorem setPin_getLsbD (pins : Pins) (k j : Fin 6) (b : Bool) :
    (setPin pins k b).getLsbD j.val = if j = k then b else pins.getLsbD j.val := by
  have hmask : (1#6 <<< k.val).getLsbD j.val = decide (j = k) := by
    rw [← BitVec.twoPow_eq, BitVec.getLsbD_twoPow]
    simp [Fin.ext_iff, eq_comm]
  rw [setPin, apply_ite (fun p : Pins => p.getLsbD j.val), BitVec.getLsbD_or, BitVec.getLsbD_and, BitVec.getLsbD_not,
    hmask]
  by_cases h : j = k <;> simp [h]

theorem setPin_comm {j k : Fin 6} (h : j ≠ k) (pins : Pins) (a b : Bool) :
    setPin (setPin pins k b) j a = setPin (setPin pins j a) k b := by
  refine BitVec.eq_of_getLsbD_eq fun i hi => ?_
  have hbit := fun p l c => setPin_getLsbD p l ⟨i, hi⟩ c
  simp only [hbit]
  by_cases hj : (⟨i, hi⟩ : Fin 6) = j
  · simp [hj, h]
  · simp [hj]

theorem Counters.incPin_comm (j k : Fin 6) (c : Counters) : (c.incPin k).incPin j = (c.incPin j).incPin k := by
  fin_cases j <;> fin_cases k <;> rfl

/-- No peer-status input counts for the master (44_counters_sleep.md R119, R120). -/
theorem Counters.incPin_master (k : Fin 6) (c : Counters) : (c.incPin k).master = c.master := by
  fin_cases k <;> rfl

theorem Counters.incPin_zero_ne (k : Fin 6) : Counters.zero.incPin k ≠ Counters.zero := by
  revert k
  decide

/-! ### The detector's step -/

/-- What enables the detector for input k (44_counters_sleep.md R121). -/
theorem detectorEnabled_iff {k : Fin 6} {s : State} :
    detectorEnabled k s = true ↔ s.initDone = true ∧ s.env.statIn.getLsbD k.val ≠ s.pinPrev.getLsbD k.val := by
  rw [detectorEnabled, Bool.and_eq_true, bne_iff_ne]

theorem detectorStep_of_enabled {k : Fin 6} {s : State} (h : detectorEnabled k s = true) :
    detectorStep k s =
      { s with pinPrev := setPin s.pinPrev k (s.env.statIn.getLsbD k.val), cnt := s.cnt.incPin k } :=
  if_pos h

theorem detectorStep_of_disabled {k : Fin 6} {s : State} (h : detectorEnabled k s = false) : detectorStep k s = s :=
  if_neg (by simp [h])

/-- The detector's step counts its input once, or counts nothing (44_counters_sleep.md R119). -/
theorem detectorStep_cnt (k : Fin 6) (s : State) :
    (detectorStep k s).cnt = s.cnt ∨ (detectorStep k s).cnt = s.cnt.incPin k := by
  cases h : detectorEnabled k s
  · rw [detectorStep_of_disabled h]; exact .inl rfl
  · rw [detectorStep_of_enabled h]; exact .inr rfl

/-- After its step no toggle of the input is pending (44_counters_sleep.md R122). -/
theorem detectorEnabled_detectorStep_self (k : Fin 6) (s : State) : detectorEnabled k (detectorStep k s) = false := by
  cases h : detectorEnabled k s
  · rw [detectorStep_of_disabled h, h]
  · rw [detectorStep_of_enabled h]
    simp only [detectorEnabled, setPin_getLsbD, if_true, bne_self_eq_false, Bool.and_false]

/-- Counting one input leaves another input's toggle as it was (44_counters_sleep.md R121). -/
theorem detectorEnabled_detectorStep_of_ne {j k : Fin 6} (h : j ≠ k) (s : State) :
    detectorEnabled j (detectorStep k s) = detectorEnabled j s := by
  cases hk : detectorEnabled k s
  · rw [detectorStep_of_disabled hk]
  · rw [detectorStep_of_enabled hk]
    simp only [detectorEnabled, setPin_getLsbD, h, if_false]

/-- Settles O44: the step by whether a toggle of the input is pending; the map is `Counters.incPin`'s own. -/
theorem detectorStep_spec : Obligations.DetectorStep := by
  unfold Obligations.DetectorStep
  refine fun k s => ⟨fun h => detectorStep_of_disabled (eq_false_of_ne_true (mt detectorEnabled_iff.mp h)),
    fun hi hk => ⟨_, _, detectorStep_of_enabled (detectorEnabled_iff.mpr ⟨hi, hk⟩),
      fun j => setPin_getLsbD s.pinPrev k j _, s.cnt.incPin_master k, ?_⟩⟩
  and_intros <;>
  · rintro rfl
    rfl

/-- The steps for two inputs commute (44_counters_sleep.md R121). -/
theorem detectorStep_comm (j k : Fin 6) (s : State) :
    detectorStep j (detectorStep k s) = detectorStep k (detectorStep j s) := by
  obtain rfl | hne := eq_or_ne j k
  · rfl
  have hj := detectorEnabled_detectorStep_of_ne hne s
  have hk := detectorEnabled_detectorStep_of_ne hne.symm s
  cases hje : detectorEnabled j s
  · rw [detectorStep_of_disabled (hj.trans hje), detectorStep_of_disabled hje]
  cases hke : detectorEnabled k s
  · rw [detectorStep_of_disabled (hk.trans hke), detectorStep_of_disabled hke]
  rw [detectorStep_of_enabled (hj.trans hje), detectorStep_of_enabled (hk.trans hke), detectorStep_of_enabled hje,
    detectorStep_of_enabled hke, setPin_comm hne, Counters.incPin_comm j k]

/-! ### What an engine step counts -/

/-- How an engine step changes the counters, by the phase it starts from (42_transmit.md R94, 43_request.md R104,
R105). -/
inductive EngineCount (p : Phase) : (Counters → Counters) → Prop
  | quiet : EngineCount p id
  | conflict (hp : p = .txColl) : EngineCount p Counters.incMConf
  | checksum (hp : p = .rqChk) : EngineCount p Counters.incMChk
  | error (hp : p = .rqData ∨ p = .rqChk) : EngineCount p Counters.incMGen
  | timeout (hp : p = .rqData ∨ p = .rqChk) : EngineCount p Counters.incMTmo

/-- A master counter's increment commutes with a slave counter's. -/
theorem EngineCount.incPin {p : Phase} {g : Counters → Counters} (h : EngineCount p g) (k : Fin 6) (c : Counters) :
    g (c.incPin k) = (g c).incPin k := by
  cases h <;> fin_cases k <;> rfl

/-- A step neither reads nor changes pin_prev, and all it does with the counters is apply `g`. -/
def CountsBy (g : Counters → Counters) (eng : State → State) (s : State) : Prop :=
  ∀ pins c, eng { s with pinPrev := pins, cnt := c } = { eng s with pinPrev := pins, cnt := g c }

theorem CountsBy.cnt {g : Counters → Counters} {eng : State → State} {s : State} (h : CountsBy g eng s) :
    (eng s).cnt = g s.cnt :=
  congrArg State.cnt (h s.pinPrev s.cnt)

/-- Steps that agree on every state that differs from `s` in pin_prev and the counters at most count alike. -/
theorem CountsBy.congr {g : Counters → Counters} {eng eng' : State → State} {s : State}
    (h : ∀ pins c, eng' { s with pinPrev := pins, cnt := c } = eng { s with pinPrev := pins, cnt := c })
    (hc : CountsBy g eng s) : CountsBy g eng' s := by
  intro pins c
  have hs : eng' s = eng s := h s.pinPrev s.cnt
  rw [hs, h pins c, hc pins c]

/-- A phase that polls counts a timeout or an error of the poll, and RQ_CHK a wrong checksum byte (43_request.md R104,
R105). -/
theorem engineStep_poll_countsBy {s : State} (hp : s.phase = .rqData ∨ s.phase = .rqChk) :
    ∃ g, EngineCount s.phase g ∧ CountsBy g engineStep s := by
  cases h : poll s.env with
  | none => exact ⟨id, .quiet, .congr (eng := id) (fun _ _ => engineStep_poll_none hp h) fun _ _ => rfl⟩
  | tmo => exact ⟨_, .timeout hp, .congr (fun _ _ => engineStep_poll_timeout hp h) fun _ _ => rfl⟩
  | err => exact ⟨_, .error hp, .congr (fun _ _ => engineStep_poll_error hp h) fun _ _ => rfl⟩
  | byte b =>
    obtain hp | hp := hp
    · exact ⟨id, .quiet, .congr (fun _ _ => engineStep_rqData_byte hp h) fun _ _ => rfl⟩
    by_cases hsum : acc s.sum b = 0xFF#8
    · refine ⟨id, .quiet, .congr (fun _ _ => engineStep_rqChk_byte hp h) fun _ _ => ?_⟩
      simp only [receiveChecksum_eq, hsum, if_true, id]
    · refine ⟨_, .checksum hp, .congr (fun _ _ => engineStep_rqChk_byte hp h) fun _ _ => ?_⟩
      simp only [receiveChecksum_eq, hsum, if_false]

/-- TX_COLL counts one conflict exactly if COLL is set (42_transmit.md R94). -/
theorem engineStep_txColl_countsBy {s : State} (hp : s.phase = .txColl) :
    ∃ g, EngineCount s.phase g ∧ CountsBy g engineStep s := by
  cases hc : s.env.coll
  · refine ⟨id, .quiet, .congr (fun _ _ => engineStep_txColl hp) fun _ _ => ?_⟩
    simp only [engTxColl, countCollision_eq, hc]
    cases s.latch.op <;> rfl
  · refine ⟨_, .conflict hp, .congr (fun _ _ => engineStep_txColl hp) fun _ _ => ?_⟩
    simp only [engTxColl, countCollision_eq, hc]
    cases s.latch.op <;> rfl

/-- Every engine step counts at most one error, by its phase, and what else it does is the same whatever pin_prev and the
counters hold. -/
theorem engineStep_countsBy (s : State) : ∃ g, EngineCount s.phase g ∧ CountsBy g engineStep s := by
  have quiet {eng : State → State} (h : CountsBy id eng s)
      (heng : ∀ pins c, engineStep { s with pinPrev := pins, cnt := c } = eng { s with pinPrev := pins, cnt := c }) :
      ∃ g, EngineCount s.phase g ∧ CountsBy g engineStep s := ⟨id, .quiet, .congr heng h⟩
  obtain ⟨p, hp⟩ : ∃ p, s.phase = p := ⟨_, rfl⟩
  cases p
  case idle => exact quiet (eng := id) (fun _ _ => rfl) fun _ _ => engineStep_idle hp
  case txArm => exact quiet (fun _ _ => by unfold engTxArm; split <;> rfl) fun _ _ => engineStep_txArm hp
  case txWake => exact quiet (fun _ _ => rfl) fun _ _ => engineStep_txWake hp
  case txHdr => exact quiet (fun _ _ => rfl) fun _ _ => engineStep_txHdr hp
  case txData => exact quiet (fun _ _ => by unfold engTxData; split <;> rfl) fun _ _ => engineStep_txData hp
  case txChk => exact quiet (fun _ _ => by unfold engTxChk; split <;> rfl) fun _ _ => engineStep_txChk hp
  case txWaitc =>
    refine quiet (fun _ _ => ?_) fun _ _ => engineStep_txWaitc hp
    unfold engTxWaitc
    split
    · split <;> rfl
    · rfl
  case txRxoffWait =>
    exact quiet (fun _ _ => by unfold engTxRxoffWait; split <;> rfl) fun _ _ => engineStep_txRxoffWait hp
  case txColl => exact engineStep_txColl_countsBy hp
  case rqData => exact engineStep_poll_countsBy (.inl hp)
  case rqChk => exact engineStep_poll_countsBy (.inr hp)
  case rqClean => exact quiet (fun _ _ => rfl) fun _ _ => engineStep_rqClean hp
  case rqCleanWait =>
    exact quiet (fun _ _ => by unfold engRqCleanWait; split <;> rfl) fun _ _ => engineStep_rqCleanWait hp

/-- An engine step does not touch the detector's enabling condition (44_counters_sleep.md R121). -/
theorem detectorEnabled_engineStep (k : Fin 6) (s : State) : detectorEnabled k (engineStep s) = detectorEnabled k s := by
  obtain ⟨-, hinit, -, -, -, -, -, -, -, hpins, -, -, -, -, hstat⟩ := engineStep_frame s
  simp only [detectorEnabled, hinit, hpins, hstat]

/-- The detector's step commutes with the engine's (44_counters_sleep.md R121, 20_memory.md R41). -/
theorem detectorStep_engineStep (k : Fin 6) (s : State) :
    detectorStep k (engineStep s) = engineStep (detectorStep k s) := by
  have hen := detectorEnabled_engineStep k s
  cases hk : detectorEnabled k s
  · rw [detectorStep_of_disabled (hen.trans hk), detectorStep_of_disabled hk]
  obtain ⟨g, hg, hcount⟩ := engineStep_countsBy s
  obtain ⟨-, -, -, -, -, -, -, -, -, hpins, -, -, -, -, hstat⟩ := engineStep_frame s
  rw [detectorStep_of_enabled (hen.trans hk), detectorStep_of_enabled hk, hcount _ (s.cnt.incPin k),
    hg.incPin, ← hcount.cnt, hpins, hstat]

/-- Settles O45: the steps of two inputs, and of the detector and the engine, commute. -/
theorem detectorOrderFree : Obligations.DetectorOrderFree := by
  unfold Obligations.DetectorOrderFree
  exact ⟨detectorStep_comm, detectorStep_engineStep⟩

/-! ### Who changes a counter -/

/-- Of the commands only RESET_COUNTERS changes a counter, and it clears all ten (44_counters_sleep.md R117, R119). -/
theorem exec_cnt {i : Instr} {s t : State} (h : exec i s = .next t) :
    t.cnt = s.cnt ∨ (∃ f, i = .resetCounters f) ∧ t.cnt = Counters.zero := by
  obtain ⟨c, -, rfl⟩ | ⟨-, r, rfl⟩ | ⟨-, -, -, -, -, rfl⟩ | ⟨-, hi, rfl⟩ | ⟨-, -, f, -, -, rfl⟩ |
    ⟨-, -, f, -, -, rfl⟩ | ⟨-, -, -, rfl⟩ := exec_cases h
  case inr.inr.inr.inl => exact .inr ⟨hi, rfl⟩
  all_goals exact .inl rfl

/-- Settles O39: the agents' steps one by one; a host access and an environment step change no counter. -/
theorem counterWriters : Obligations.CounterWriters := by
  unfold Obligations.CounterWriters
  intro s t h
  obtain ⟨es, n, hu⟩ := popEvent_frame s
  obtain ⟨u, rfl, hc⟩ := step_cases h
  rw [hu] at hc
  obtain ⟨_, _, _, v, rfl⟩ | ⟨_, c, v, _, rfl⟩ | rfl | ⟨i, hi, he⟩ | ⟨_, b, d, rfl⟩ | ⟨hev, rfl⟩ | ⟨k, hev, rfl⟩ |
    ⟨e, _, rfl⟩ | ⟨after, hev, rfl⟩ := hc
  · exact .inl rfl
  · exact .inl rfl
  · exact .inl rfl
  · obtain hcnt | ⟨⟨f, rfl⟩, hcnt⟩ := exec_cnt he
    · exact .inl hcnt
    · rw [hcnt]
      exact .inr (.inr (.inr ⟨.inl ⟨f, hi⟩, rfl, rfl⟩))
  · exact .inl rfl
  · obtain ⟨g, hg, hcount⟩ := engineStep_countsBy { s with events := es, draws := n }
    rw [hcount.cnt]
    cases hg with
    | quiet => exact .inl rfl
    | conflict hp => exact .inr (.inl ⟨hev, rfl, .inl ⟨hp, rfl⟩⟩)
    | checksum hp => exact .inr (.inl ⟨hev, rfl, .inr (.inl ⟨hp, rfl⟩)⟩)
    | error hp => exact .inr (.inl ⟨hev, rfl, .inr (.inr ⟨hp, .inl rfl⟩)⟩)
    | timeout hp => exact .inr (.inl ⟨hev, rfl, .inr (.inr ⟨hp, .inr rfl⟩)⟩)
  · obtain hcnt | hcnt := detectorStep_cnt k { s with events := es, draws := n }
    · exact .inl hcnt
    · rw [hcnt]
      exact .inr (.inr (.inl ⟨⟨k, hev, rfl⟩, s.cnt.incPin_master k⟩))
  · obtain ⟨env, bus, hd⟩ := envStep_frame e { s with events := es, draws := n }
    rw [hd]
    exact .inl rfl
  · exact .inr (.inr (.inr ⟨.inr ⟨after, hev⟩, rfl, rfl⟩))

/-! ### RESET_COUNTERS -/

/-- RESET_COUNTERS records its word and OK and clears the counters, nothing else (44_counters_sleep.md R117). -/
theorem exec_resetCounters (f : CmdFields) {s : State} (hb : s.busy = false) :
    exec (.resetCounters f) s =
      .next { s with cmd := encode (.resetCounters f), result := .ok, cnt := Counters.zero } :=
  accept_beforeInit _ _ hb

/-- A command's word written to CMD: BUSY is checked first, then the reserved bits, then the command runs
(30_encoding.md R49). -/
theorem hostWrite_command {v : Word} {i : Instr} (hop : wordOp v = i.opcode) (hf : wordFields v = i.fields) (s : State) :
    hostWrite 0x00 4 v s =
      if s.busy = true then .next (refuse .writeWhileBusy s)
      else if wordReserved v = true then .next (refuse .rsvdBits s)
      else exec i s := by
  rw [hostWrite_cmd]
  split_ifs with hb hr
  · exact writeCmd_eq_refuse_of_busy hb v
  · exact writeCmd_of_reject (eq_false_of_ne_true hb) (decode_eq_rsvdBits_iff.mpr hr)
  · exact writeCmd_of_decode (decode_eq_ok_iff.mpr ⟨eq_false_of_ne_true hr, hop, hf⟩) s

/-- Settles O15: RESET_COUNTERS as the command, and as a written word. -/
theorem resetCountersClears : Obligations.ResetCountersClears := by
  unfold Obligations.ResetCountersClears
  refine ⟨fun f _ hb => exec_resetCounters f hb, fun v s hv => ?_⟩
  have hop : wordOp v = 0x5#4 := BitVec.eq_of_toNat_eq ((wordOp_toNat v).trans hv)
  rw [hostWrite_command (i := .resetCounters (wordFields v)) hop rfl]
  split_ifs with hb hr
  · rfl
  · rfl
  · have hd : decode v = .ok (.resetCounters (wordFields v)) :=
      decode_eq_ok_iff.mpr ⟨eq_false_of_ne_true hr, hop, rfl⟩
    rw [exec_resetCounters _ (eq_false_of_ne_true hb), (encode_of_decode hd).2]
    rfl

/-- Settles O46: RESET_COUNTERS leaves a toggle pending, and after the detector's step none is. -/
theorem resetRace : Obligations.ResetRace := by
  unfold Obligations.ResetRace
  intro k f s hb hi hk
  have hen : detectorEnabled k s = true := detectorEnabled_iff.mpr ⟨hi, hk⟩
  constructor
  · refine ⟨_, exec_resetCounters f hb, ?_⟩
    rw [detectorStep_of_enabled (s := { s with cmd := _, result := _, cnt := Counters.zero }) hen]
    exact ⟨Counters.zero.incPin_master k, rfl, Counters.incPin_zero_ne k⟩
  · have hpend := detectorEnabled_detectorStep_self k s
    rw [detectorStep_of_enabled hen] at hpend ⊢
    exact ⟨_, exec_resetCounters f hb, rfl, detectorStep_of_disabled hpend⟩

/-! ### SLEEP -/

/-- A SLEEP while the bus sleeps, not forced, records its word and OK, nothing else (44_counters_sleep.md R114). -/
theorem exec_sleep_skipped {f : CmdFields} {s : State} (hb : s.busy = false) (hi : s.initDone = true)
    (hs : s.sleeping = true) (hf : f.force = false) :
    exec (.sleep f) s = .next { s with cmd := encode (.sleep f), result := .ok } := by
  have hrun : runSleep f (storeCmd (.sleep f) s) = setResult .ok (storeCmd (.sleep f) s) := by
    simp [runSleep, hs, hf]
  exact (accept_run _ _ hb hi).trans (congrArg _ hrun)

/-- Settles O14: the frame's start in one record with the latched sleep frame, or the skipped SLEEP. -/
theorem sleepStartsFrame : Obligations.SleepStartsFrame := by
  unfold Obligations.SleepStartsFrame
  refine fun f s hb hi => ⟨fun hf => ?_, exec_sleep_skipped hb hi⟩
  rw [exec_sleep_starts hb hi hf, startFrame_eq, latchFrame_sleep]
  rfl

end Sys2Proof.Machine
end

section
/-! Refusals and faults: what a refusal records and that its cause stays, that no step stops the machine, and what the end
of a frame leaves behind (spec/60_exceptions.md). -/

namespace Sys2Proof.Machine

/-! ### The error record -/

/-- The first refusal since reset is recorded (60_exceptions.md R127). -/
theorem refuse_first {s : State} (he : s.err = false) (c : ErrCause) :
    refuse c s = { s with err := true, errCause := c } := by
  simp [refuse, he]

/-- A later refusal changes nothing (60_exceptions.md R128). -/
theorem refuse_later {s : State} (he : s.err = true) (c : ErrCause) : refuse c s = s := by
  simp [refuse, he.symm]

/-- No command changes an error record that stands (60_exceptions.md R128). -/
theorem exec_errSticky {i : Instr} {s t : State} (h : exec i s = .next t) (he : s.err = true) :
    t.err = true ∧ t.errCause = s.errCause := by
  obtain ⟨c, -, rfl⟩ | ⟨-, r, rfl⟩ | ⟨-, -, -, -, -, rfl⟩ | ⟨-, -, rfl⟩ | ⟨-, -, f, -, -, rfl⟩ |
    ⟨-, -, f, -, -, rfl⟩ | ⟨-, -, -, rfl⟩ := exec_cases h
  case inl => exact ⟨rfl, if_pos he⟩
  all_goals exact ⟨he, rfl⟩

/-- Settles O36: a later refusal changes nothing, and beside refusals only the reset touches the error record. -/
theorem errSticky : Obligations.ErrSticky := by
  unfold Obligations.ErrSticky
  intro s t h he
  obtain ⟨es, n, ⟨v, pins, c, rfl⟩ | ⟨-, c, v, rfl⟩ | ⟨i, -, hexec⟩ | ⟨-, b, d, rfl⟩ | ⟨-, hm⟩ | ⟨e, -, rfl⟩ |
    ⟨after, hev, rfl⟩⟩ := step_moves h
  · exact .inl ⟨he, rfl⟩
  · exact .inl ⟨rfl, if_pos he⟩
  · have hstays := exec_errSticky hexec he
    exact .inl hstays
  · exact .inl ⟨he, rfl⟩
  · cases hm <;> exact .inl ⟨he, rfl⟩
  · obtain ⟨env, bus, hd⟩ := envStep_frame e { s with events := es, draws := n }
    rw [hd]
    exact .inl ⟨he, rfl⟩
  · exact .inr ⟨⟨after, hev⟩, rfl, rfl⟩

/-! ### INIT's refusals -/

/-- INIT after INIT is refused (40_bit_timing.md R60). -/
theorem initWith_eq_refuse_alreadyInit (p : Params) (f : CmdFields) {s : State} (hb : s.busy = false)
    (hi : s.initDone = true) : initWith p f s = .next (refuse .alreadyInit s) := by
  simp [initWith, hb, hi]

/-- INIT is refused where the rate gives no bit-time, which BAUD = 0 does too (40_bit_timing.md R60, R61). -/
theorem initWith_eq_refuse_badBaud (p : Params) (f : CmdFields) {s : State} (hb : s.busy = false)
    (hi : s.initDone = false) (hbt : s.baud = 0 ∨ bitTicks p s.baud.toNat = 0) :
    initWith p f s = .next (refuse .badBaud s) := by
  simp only [initWith, hb, hi, Bool.false_eq_true, if_false]
  by_cases hbaud : s.baud = 0
  · rw [if_pos hbaud]
  · rw [if_neg hbaud, if_pos (hbt.resolve_left hbaud)]

/-- Settles O8: the error record, then the refused CMD writes, commands, storage writes and bad accesses one by one. -/
theorem refusalsRecorded : Obligations.RefusalsRecorded := by
  unfold Obligations.RefusalsRecorded
  have order := cmdWriteOrder
  unfold Obligations.CmdWriteOrder at order
  refine ⟨fun c _ he => refuse_first he c, fun c _ he => refuse_later he c,
    fun v _ hb => hostWrite_eq_refuse_of_busy hb v (.inl rfl), fun v s => (order v s).2.1, fun v s => (order v s).2.2.1,
    fun _ _ => exec_eq_refuse_notInit, fun f _ => initWith_eq_refuse_alreadyInit _ f,
    fun f _ hb hi hbaud => initWith_eq_refuse_badBaud _ f hb hi (.inl hbaud),
    fun p f _ hb hi hbt => initWith_eq_refuse_badBaud p f hb hi (.inr hbt), fun _ _ => rfl,
    fun v _ _ hoff hb => hostWrite_eq_refuse_of_busy hb v (.inr hoff), fun v off size s h1 hreach hbad => ?_⟩
  have ha := inAperture_of_reaches h1 hreach
  have hg := goodAccess_eq_false hbad
  exact ⟨hostWrite_badAccess ha hg v s, hostRead_badAccess ha hg s⟩

/-! ### Every step answers -/

/-- Every command answers a next state: it is refused for BUSY, refused before INIT, or passes (60_exceptions.md R126). -/
theorem exec_answers (i : Instr) (s : State) : ∃ t, exec i s = .next t := by
  cases hb : s.busy
  case true => exact ⟨_, exec_eq_refuse_of_busy hb i⟩
  case false =>
    by_cases hi : sendsFrame i = true → s.initDone = true
    · exact (exec_stores hb hi).imp fun _ => And.left
    · obtain ⟨hsends, hinit⟩ := Classical.not_imp.mp hi
      exact ⟨_, exec_eq_refuse_notInit hsends hb (eq_false_of_ne_true hinit)⟩

theorem writeCmd_answers (v : Word) (s : State) : ∃ t, writeCmd v s = .next t := by
  unfold writeCmd
  split
  · exact exec_answers _ s
  · exact ⟨_, rfl⟩

/-- Every host write answers a next state: only a CMD write can do more than store, ignore or refuse (20_memory.md R38,
60_exceptions.md R126). -/
theorem hostWrite_answers (off : Int) (size : Nat) (v : Word) (s : State) : ∃ t, hostWrite off size v s = .next t := by
  unfold hostWrite
  split
  · exact ⟨_, rfl⟩
  split
  · unfold writeOffset
    split
    · exact writeCmd_answers v s
    all_goals exact ⟨_, rfl⟩
  · exact ⟨_, rfl⟩

/-- Settles O41: of all events only a host write runs a command, and every command answers. -/
theorem noStepStops : Obligations.NoStepStops := by
  unfold Obligations.NoStepStops
  refine ⟨fun s => ?_, exec_answers⟩
  unfold step
  cases nextEvent s with
  | hostWrite off size v => exact hostWrite_answers off size v _
  | _ => exact ⟨_, rfl⟩

/-! ### The end of a frame -/

theorem collResult_eq_abort_iff (e : Env) : collResult e = .abort ↔ e.coll = true := by
  cases h : e.coll <;> simp [collResult, h]

/-- What TX_COLL leaves of a TRANSMIT or SLEEP that ends (60_exceptions.md R131). -/
theorem engTxColl_end_frame {s : State} (hop : s.latch.op ≠ .rq) :
    (engTxColl s).phase = .idle ∧ (engTxColl s).data = s.data ∧ (engTxColl s).rxCount = s.rxCount ∧
      (engTxColl s).env = s.env ∧ (engTxColl s).result = collResult s.env := by
  cases h : s.latch.op
  case rq => exact absurd h hop
  case tx => rw [engTxColl_transmit_eq h]; exact ⟨rfl, rfl, rfl, rfl, rfl⟩
  case sl => rw [engTxColl_sleep_eq h]; exact ⟨rfl, rfl, rfl, rfl, rfl⟩

/-- A frame ends in TX_COLL for TRANSMIT and SLEEP, and in RQ_CLEAN_WAIT once the receiver is confirmed off
(42_transmit.md R94, 43_request.md R107). -/
theorem engineStep_ends {s : State} (hb : s.busy = true) (hend : (engineStep s).busy = false) :
    s.phase = .txColl ∧ s.latch.op ≠ .rq ∨ s.phase = .rqCleanWait ∧ s.env.rxDisabled = true := by
  obtain hsame | ⟨-, hp | hp, -⟩ := (engineStep_move s).busy
  · rw [hend, hb] at hsame
    cases hsame
  · refine .inl ⟨hp, fun hop => ?_⟩
    rw [engineStep_txColl hp, (engTxColl_goesOn hop).1, hb] at hend
    cases hend
  · refine .inr ⟨hp, by_contra fun hon => ?_⟩
    rw [engineStep_rqCleanWait hp, engRqCleanWait, if_neg hon, hb] at hend
    cases hend

/-- Settles O53: the two phases in which a frame ends leave the collaborators, which the invariant describes there. -/
theorem exitTable : Obligations.ExitTable := by
  unfold Obligations.ExitTable
  intro s h hb hend
  have henv := h.envInv hb
  obtain ⟨hp, hop⟩ | ⟨hp, hoff⟩ := engineStep_ends hb hend
  · have hafter : s.phase.beforeTxc = false := by rw [hp]; rfl
    obtain ⟨hidle, hdata, hcount, hsame, hresult⟩ := engTxColl_end_frame hop
    rw [engineStep_txColl hp, hsame, hresult]
    exact ⟨hidle, hdata, hcount, fun hrq => absurd hrq hop, fun _ => ⟨hp, rfl, collResult_eq_abort_iff _,
      fun hd => henv.receiverOff (.inl ⟨hafter, hd⟩),
      fun hd => ⟨henv.receiverOn (.inr ⟨hd, by simp [hp]⟩), henv.unblocked hafter hd⟩⟩⟩
  · have hop : s.latch.op = .rq := (h.phaseInv hb).receivePhase (by rw [hp]; rfl)
    rw [engineStep_rqCleanWait hp, engRqCleanWait_eq hoff]
    exact ⟨rfl, rfl, rfl, fun _ => ⟨hp, hoff, henv.timerOff hp, henv.receiverOff (.inr hp), rfl⟩,
      fun hne => absurd hop hne⟩

end Sys2Proof.Machine
end

section
/-! Where the engine waits, and the hardware reset (70_reset_and_hazards.md R141 to R143, R146). -/

namespace Sys2Proof.Machine

/-! ### The engine's waits -/

/-- A phase that awaits a flag leaves the state as it is exactly while the flag is 0. -/
theorem await_eq_self_iff {flag : Bool} {s t : State} (hne : t ≠ s) :
    (if flag = true then t else s) = s ↔ flag = false := by
  rw [ite_eq_right_iff, imp_iff_not hne, Bool.not_eq_true]

/-- Actions issued show in the record of actions, which only grows (log 17). -/
theorem ne_of_acts_append {s t : State} {a : Action} {as : List Action} (h : t.acts = s.acts ++ a :: as) : t ≠ s :=
  ne_of_apply_ne State.acts (by simp [h])

/-- TX_WAITC's step shows in the phase, whichever of its two rows it takes (42_transmit.md R92). -/
theorem engTxWaitc_eq_self_iff {s : State} (hp : s.phase = .txWaitc) : engTxWaitc s = s ↔ s.env.txc = false := by
  refine await_eq_self_iff (ne_of_apply_ne State.phase ?_)
  split <;> simp [hp]

/-- TX_COLL awaits nothing: it ends the frame or goes on to a receive phase (42_transmit.md R94). -/
theorem engTxColl_ne_self {s : State} (hp : s.phase = .txColl) : engTxColl s ≠ s := by
  refine ne_of_apply_ne State.phase ?_
  cases hop : s.latch.op
  case tx => simp [engTxColl_transmit_eq hop, hp]
  case sl => simp [engTxColl_sleep_eq hop, hp]
  case rq =>
    cases hc : s.env.coll
    · rw [engTxColl_clear_eq hop hc]
      split <;> simp [hp]
    · simp [engTxColl_collided_eq hop hc, hp]

/-- A step is a change: every step the engine is enabled for moves the phase or issues an action, and the engine holds
where it is not enabled (70_reset_and_hazards.md R146). -/
theorem engineStep_eq_self_iff (s : State) : engineStep s = s ↔ engineEnabled s = false := by
  cases hp : s.phase <;> simp only [engineEnabled, hp, Bool.true_eq_false, iff_false, bne_eq_false_iff_eq]
  case idle => simp only [engineStep_idle hp]
  case txArm =>
    rw [engineStep_txArm hp]
    refine await_eq_self_iff (ne_of_apply_ne State.phase ?_)
    split <;> simp [hp]
  case txWake => rw [engineStep_txWake hp]; exact ne_of_acts_append rfl
  case txHdr =>
    rw [engineStep_txHdr hp, engTxHdr_eq]
    exact ne_of_acts_append rfl
  case txData => rw [engineStep_txData hp]; exact await_eq_self_iff (ne_of_acts_append rfl)
  case txChk => rw [engineStep_txChk hp]; exact await_eq_self_iff (ne_of_acts_append rfl)
  case txWaitc => rw [engineStep_txWaitc hp]; exact engTxWaitc_eq_self_iff hp
  case txRxoffWait =>
    rw [engineStep_txRxoffWait hp]
    exact await_eq_self_iff (ne_of_apply_ne State.phase (by simp [hp]))
  case txColl => rw [engineStep_txColl hp]; exact engTxColl_ne_self hp
  case rqData => exact engineStep_poll_eq_self_iff (.inl hp)
  case rqChk => exact engineStep_poll_eq_self_iff (.inr hp)
  case rqClean =>
    rw [engineStep_rqClean hp, engRqClean_eq]
    exact ne_of_acts_append rfl
  case rqCleanWait =>
    rw [engineStep_rqCleanWait hp]
    exact await_eq_self_iff (ne_of_apply_ne State.phase (by simp [hp]))

/-- The poll answers none exactly with no flag set and no byte waiting (43_request.md R103). -/
theorem poll_eq_none_iff (e : Env) :
    poll e = .none ↔ e.tmoUf = false ∧ e.ferr = false ∧ e.ovf = false ∧ e.rxFifo = [] := by
  rw [← not_iff_not, ← ne_eq, poll_ne_none_iff, e.rxDataV_iff]
  simp only [not_and_or, Bool.not_eq_false, ne_eq]

/-- Settles O34: the engine's step changes the state exactly when the phase's await holds, and the awaits, phase by
phase, are those stated. -/
theorem engineHolds : Obligations.EngineHolds := by
  unfold Obligations.EngineHolds
  refine fun s => ⟨(engineStep_eq_self_iff s).trans ?_, ?_⟩
  · cases hp : s.phase <;>
      simp [engineEnabled, hp, poll_eq_none_iff, imp_iff_not_or]
  · rw [ne_eq, engineStep_eq_self_iff, Bool.not_eq_false]

/-! ### Reset -/

/-- A step whose event is the reset input resets the block in whatever phase it is (70_reset_and_hazards.md R141). -/
theorem step_resetEvent {s : State} {after : Env} {rest : List Event} (h : s.events = .reset after :: rest) :
    step s = .next (hardReset after { s with events := rest }) := by
  simp only [step, nextEvent, popEvent, h, handle]

/-- Every byte of DATA is 0 after a reset (70_reset_and_hazards.md R142). -/
theorem dataByte_hardReset (after : Env) (s : State) (k : Nat) : dataByte (hardReset after s).data k = 0 := by
  simp only [hardReset, State.resetWith, dataByte, Vector.getElem?_replicate]
  split <;> rfl

theorem statusWord_hardReset (after : Env) (s : State) : statusWord (hardReset after s) = 0x00000070#32 := by
  simp only [statusWord, hardReset, State.resetWith]
  decide

theorem frameInfoWord_hardReset (after : Env) (s : State) : frameInfoWord (hardReset after s) = 0 := by
  simp only [frameInfoWord, hardReset, State.resetWith]
  decide

/-- Settles O42: the step is the hard reset, whose record holds the values stated. -/
theorem hardReset_anyPhase : Obligations.HardReset := by
  unfold Obligations.HardReset
  refine fun s after rest h => ⟨_, step_resetEvent h, ?_⟩
  exact ⟨rfl, statusWord_hardReset after _, rfl, rfl, rfl, rfl, rfl, rfl, rfl, rfl, rfl, rfl, rfl,
    frameInfoWord_hardReset after _, dataByte_hardReset after _, rfl, rfl, rfl, rfl, rfl, rfl, rfl, rfl, rfl, rfl, rfl⟩

/-- Settles O49: the power-on state is a hard reset of itself, and a hard reset meets the invariant whatever the
collaborators hold. -/
theorem invHoldsAtReset : Obligations.InvHoldsAtReset :=
  inv_hardReset Env.powerOn State.reset

end Sys2Proof.Machine
end
